-- ==== Sys2Proof/Word.lean ====
section
/-! DEFINITION. The word types of the WZ6424 model: 32-bit register words (R526), bytes, 24-bit link sequence
numbers (R199), 60-bit beat times (R3) and the small index types of R2. -/

namespace Sys2Proof

/-- A register word: every register access moves one whole 32-bit word (R526). -/
abbrev Word := BitVec 32

/-- One byte of a flit, record, message or memory. -/
abbrev Byte := BitVec 8

/-- A sequence number of one direction of a Qormos link (R199). -/
abbrev Seq := BitVec 24

/-- A 60-bit beat time: index in bits [59:12], phase in bits [11:0] (R3). -/
abbrev BeatTime := BitVec 60

/-- A lane in the numbering of R58: 0-63 I00-I63, 64-127 D00-D63, 128-143 S00-S15. -/
abbrev LaneNo := Fin 144

/-- A quad: 0-15 IQ00-IQ15, 16-31 DQ00-DQ15 (R352), 32-35 SQ0-SQ3. -/
abbrev QuadNo := Fin 36

/-- A path slot P00-P31; also the verdict pair of the same number (R301). -/
abbrev PathNo := Fin 32

/-- An I-port slot IP00-IP31. -/
abbrev PortNo := Fin 32

/-- A Spool stream 0-1023 (R243). -/
abbrev StreamNo := Fin 1024

end Sys2Proof
end

