-- ==== Sys2Proof/Syntax.lean ====
section
/-! DEFINITION. The commands of the block: one constructor of `Instr` for each row of spec/opcode_table.json, in the
table's order. The table gives a row no operand bits, so the operands are the fields that the rules of the row name
(notes/assumptions/1.md). A command whose instant matters carries it as `t`, in units of 0.25 ns since power was first
applied (notes/assumptions/2.md). -/

namespace Sys2Proof

/-- Who asks for a change (R412): the origin of a Logbook entry, with its instance where the code has one. -/
inductive Origin where
  | image (sectionType : Nat)
  | core (c : Fin 4)
  | mgmt
  | ctrlFlit (ip : PortNo)
  | trainPeer (id : Fin 64)
  | debug
  | hardware
deriving DecidableEq, Repr, Inhabited

/-- The eight path modes with the codes of R14. -/
inductive Mode where
  | moored | pass | guard | observe | verdict | drive | fanOut | survey
deriving DecidableEq, Repr, Inhabited

/-- A direction of a path: I→D (0) or D→I (1), as R172, R247 and R233 number them. -/
inductive Dir where
  | toD | toI
deriving DecidableEq, Repr, Inhabited

/-- A side of a path. -/
inductive Side where
  | iSide | dSide
deriving DecidableEq, Repr, Inhabited

/-- What the schedule knows of an entry that fires: its slot, its W2.train bit, the origin of its load (R412) and
whether it fires late (R63). -/
structure Fire where
  slot   : Fin 1024
  train  : Bool
  origin : Origin
  late   : Bool
deriving DecidableEq, Repr, Inhabited

/-- The scope of ADAPT_FREEZE and ADAPT_UNFREEZE (R58): one lane, all lanes of a path, or all data lanes. -/
inductive FreezeScope where
  | lane (l : LaneNo)
  | path (p : PathNo)
  | all
deriving DecidableEq, Repr, Inhabited

/-- The readings of one strap pin in mV: 8 readings with the pull-up, 8 with the pull-down (R564). -/
structure StrapPin where
  up   : List Nat
  down : List Nat
deriving DecidableEq, Repr, Inhabited

/-- The six readings of one fuse word: copies A and B at the low, nominal and high margins (R439). -/
structure FuseReads where
  word : Fin 204
  a    : List (BitVec 40)
  b    : List (BitVec 40)
deriving DecidableEq, Repr, Inhabited

/-- What the device reads from one NVM chip: the bytes of the image that it holds, the SHA-384 of the bodies of the seven sections
that its header names, in the directory's order, whether the hash of its key equals the fused hash, whether its signature verifies
(R392), and whether a line of the chip failed. -/
structure NvmChip where
  bytes       : List Byte
  shas        : List (BitVec 384)
  keyHashOk   : Bool
  signatureOk : Bool
  lineFault   : Bool
deriving DecidableEq, Repr, Inhabited

/-- What the store host's power-on scan finds (R280, R466): for each stream the last valid record's sequence number
and the store position after it; the marks of the newest valid snapshot by key_id; the key_ids of sealed blocks found. -/
structure ScanResult where
  streams : List (StreamNo × Nat × Nat)
  marks   : List (Word × Word)
  sealed  : List Word
deriving DecidableEq, Repr, Inhabited

/-- The content of a negotiation set (R140): its nine data characters after the comma and the polarity character. -/
structure NegSet where
  setType   : Byte
  version   : Byte
  tag       : Byte
  pos       : Byte
  phys      : Byte
  laneCount : Byte
  maxRate   : Byte
  caps      : Byte
  check     : Byte
deriving DecidableEq, Repr, Inhabited

/-- What a receiver's adaptation wants of its partner's transmitter (R116): nothing, the taps c(-3) to c(+2), or a preset. -/
inductive PartnerReq where
  | none
  | taps (want : List Int)
  | preset (n : Fin 16)
deriving DecidableEq, Repr, Inhabited

/-- What the equaliser of a lane computes at an update (R88, R127): the FFE taps, the DFE tap and the main cursor. -/
structure EqTaps where
  ffe  : List Int
  dfe  : Int
  main : Int
deriving DecidableEq, Repr, Inhabited

/-- A received SKP ordered set (R130): the units that it has, those added or removed as it is sent on, and its line bits, lane by
lane. -/
structure SkpSet where
  units  : Nat
  adjust : Int
  bits   : List (List Bool)
deriving DecidableEq, Repr, Inhabited

/-- What the training of an Ethernet segment ends with (R86, R92, R138): the positions whose polarity is inverted, those for which the
partner asked for precoding, and the partner's last request on a position, its five taps. -/
structure SegResult where
  inverted : BitVec 16
  precode  : BitVec 16
  reqs     : List (Fin 16 × List Int)
deriving DecidableEq, Repr, Inhabited

/-- What an event brings, with its instant in units of the model's time. -/
structure Timed (α : Type) where
  t : Nat
  x : α
deriving DecidableEq, Repr, Inhabited

/-- Where a PCIe lane of the device receives (R111, R120): lane `k` of a path, in the direction of what it receives, or a store
lane. -/
inductive PcieEnd where
  | path (p : PathNo) (dir : Dir) (k : Fin 16)
  | store (l : Fin 16)
deriving DecidableEq, Repr, Inhabited

/-- A Lane Margining at the Receiver command (R110, R133). -/
inductive MarginCmd where
  | capabilities
  | timing (left : Bool) (steps : Nat)
  | voltage (down : Bool) (steps : Nat)
  | normal
  | clearLog
deriving DecidableEq, Repr, Inhabited

/-- A TS1 or TS2 ordered set as one lane of a PCIe path receives it: the fields that R121, R122, R127, R135 and R142
name. -/
structure TsSet where
  ts2         : Bool
  /-- The rate at which the set is received (R70), the rates of its Data Rate Identifier, the lowest bit 2.5 GT/s, and its
  speed change bit. -/
  rate        : Fin 7
  dataRates   : BitVec 7
  speedChange : Bool
  present1    : Bool
  present2    : Bool
  laneNum     : Option Byte
  precodeReq  : Bool
  /-- EC, preset, FS, LF, coefficients c(-1), c(0), c(+1), and whether these ask for coefficients or were refused. -/
  eqPhase     : Option (Fin 4)
  preset      : Fin 16
  fs          : BitVec 6
  lf          : BitVec 6
  coef        : BitVec 6 × BitVec 6 × BitVec 6
  usesCoef    : Bool
  reject      : Bool
  configDone  : Bool
  /-- The compliance request with its preset, the alternate-protocol fields of a modified set, and every other symbol. -/
  compliance  : Option (Fin 16)
  alt         : Option (BitVec 56)
  rest        : List Byte
deriving DecidableEq, Repr, Inhabited

/-- The result of one receiving lane over the PRBS31 flit test (R151). -/
structure PrbsResult where
  pos          : Fin 18
  uncorrectable : Nat
  crcFails     : Nat
  bitErrors    : Nat
  corrected    : Nat
deriving DecidableEq, Repr, Inhabited

/-- A flit as a lane of a port receives it: the port position of the lane, the symbol position of its first symbol, the level of the
symbol before it, and the levels of its 1,152 symbols (R79, R188). -/
structure RxFlit where
  pos    : Fin 18
  sym    : Nat
  before : Fin 4
  levels : List (Fin 4)
deriving DecidableEq, Repr, Inhabited

/-- What a read of a flit's Reel cell meets (R214): uncorrectable words in copy A and in copy B, and a corrected word of copy A,
counted from the start of the cell. -/
structure ReelRead where
  badA      : Bool
  badB      : Bool
  corrected : Option Nat
deriving DecidableEq, Repr, Inhabited

/-- A unit that the protocol decoder delimits (R270, R311): its bytes and the D-port lane of each byte. -/
structure DecUnit where
  bytes : List Byte
  lanes : List (Fin 16)
deriving DecidableEq, Repr, Inhabited

/-- A route tag (R172). -/
structure RouteTag where
  path : PathNo
  port : PortNo
  pos  : Fin 32
  dir  : Dir
deriving DecidableEq, Repr, Inhabited

/-- The tags that an output's two comparators see (R173). -/
structure TagSeen where
  received : BitVec 16
  copy     : BitVec 16
deriving DecidableEq, Repr, Inhabited

/-- An output that checks route tags (R173): the transmitter of a D lane, the D→I input of a link engine, the transmitter of a
lane of an I port, the input of a verdict pair for a lane, and the capture input of a stream. -/
inductive TagPoint where
  | dLane (d : Fin 64)
  | engine (ip : PortNo)
  | iLane (ip : PortNo) (pos : Fin 18)
  | verdict (pair : PathNo) (pos : Fin 16)
  | spool (st : StreamNo)
deriving DecidableEq, Repr, Inhabited

/-- A lane flit index (n, f) of R198. -/
structure FlitIndex where
  n : BitVec 16
  f : BitVec 14
deriving DecidableEq, Repr, Inhabited

/-- What reaches the protocol decoder and the verdict pair from the D side in one piece (R259, R302, R313, R321): for
each lane of the D port its line bits in order, the receiver samples of its symbols as (|e|, g), the decoded units,
the FEC symbols corrected and the flits that fail their CRC, and whether the data is poisoned (R365). -/
structure DRx where
  bits    : List (List Bool)
  samples : List (List (Nat × Nat))
  units   : List DecUnit
  fec     : Nat
  crcFail : Nat
  poison  : Bool
deriving DecidableEq, Repr, Inhabited

/-- What a service slot meets in HBM at the row it works on (R288, R291): the stacks whose units read uncorrectable, the words that
were corrected, by stack and word of the unit, and whether the parity matched. -/
structure RowRead where
  bad       : List (Fin 4)
  corrected : List (Fin 4 × Fin 128)
  parityOk  : Bool
deriving DecidableEq, Repr, Inhabited

/-- A slot of the service frame (R255) and what it meets. -/
structure SlotRead where
  slot : Fin 256
  read : RowRead
deriving DecidableEq, Repr, Inhabited

/-- What a completed drive command was (R283, R273, R286, R278); a block read back is given with its content opened and
whether its tag held (R462, R464). -/
inductive DriveDone where
  | rowWrite (s : StreamNo)
  | readRecord (s : StreamNo) (block : List Byte) (tagOk : Bool)
  | rebuildRow (row : Nat)
  | rebuildEnd
  | snapshot
deriving DecidableEq, Repr, Inhabited

/-- What happens at a store port (R295). -/
inductive StorePortEvent where
  | linkDown | linkDegraded | aerUncorrectable
deriving DecidableEq, Repr, Inhabited

/-- A drive as the store host finds it (R281, R286): the port it hangs on, whether it supports what R281 lists, and
its capacity in 4 KiB blocks. -/
structure DriveInfo where
  drive    : Fin 16
  port     : Fin 2
  usable   : Bool
  capacity : Nat
deriving DecidableEq, Repr, Inhabited

/-- A slot received on the train bus (R334, R337): the slot it arrives in and its 400 half-cell levels, the first the most
significant. -/
structure TrainRx where
  arrival  : Fin 64
  cells    : BitVec 400
deriving DecidableEq, Repr, Inhabited

/-- One operation of a SCHED-class CTRL flit (R534). -/
inductive SchedOp where
  | append (set : Fin 8) (addr value mask : Word)
  | clear (set : Fin 8)
  | load (slot : Fin 1024) (w0 w1 w2 w3 : Word)
  | cancel (slot : Fin 1024)
deriving DecidableEq, Repr, Inhabited

/-- A mailbox message (R494). -/
structure MbMsg where
  service : Byte
  kind    : Byte
  tag     : BitVec 16
  status  : Byte
  rsv5    : Byte
  length  : BitVec 16
  rsv8    : List Byte
  body    : List Byte
deriving DecidableEq, Repr, Inhabited

/-- Which mailbox: 0 on the management bus, 1 + n on I-port slot n (R494). -/
abbrev MbNo := Fin 33

/-- A Gondola memory with an error (R480): a dirty cache line with the word of data RAM that it holds, a word of a RAM with the core
that fetches or reads it. -/
inductive GonMem where
  | l1i (core : Fin 4) | l1dClean (core : Fin 4) | l1dDirty (core : Fin 4) (word : Nat) | l2Clean | l2Dirty (word : Nat)
  | codeRam (word : Nat) (fetch : Option (Fin 4)) | dataRam (word : Nat) (reader : Option (Fin 4)) | bootRom | patchRam
deriving DecidableEq, Repr, Inhabited

/-- An error in a Gondola memory (R480): a corrected or an uncorrectable word, with its address. -/
structure GonErr where
  mem       : GonMem
  corrected : Bool
  addr      : Word
deriving DecidableEq, Repr, Inhabited

/-- Which outside line a readback or range monitor watches (R354). -/
inductive MonLine where
  | beat | train | faultN | alertN
deriving DecidableEq, Repr, Inhabited

/-- Why a Windsock operation ends (R109). -/
inductive WskEnd where
  | complete | interrupted | preempted
deriving DecidableEq, Repr, Inhabited

/-- The commands: one constructor for each row of spec/opcode_table.json, in its order. -/
inductive Instr where
  | supplyGood (t : Nat) (pins : List StrapPin)
  | powerOnReset (supply : Fin 9)
  | refclkCountComplete (t : Nat)
  | pllLock (t : Nat) (fuses : List FuseReads) (rootId : BitVec 64) (selfTestOk : Bool)
  | hbmTrainingComplete (t : Nat) (failed : List (Fin 4)) (failedPcs : List (Fin 4 × Fin 30))
  | imageLoadComplete (t : Nat) (a b : NvmChip)
  | firmwareStart (t : Nat) (scan : ScanResult)
  | beatFrame (t : Nat) (cells : BitVec 160)
  | localBeatEdge (t : Nat)
  | beatLoss (t : Nat)
  | schedFire (t : Nat)
  | schedLoad (o : Origin) (slot : Fin 1024) (w0 w1 w2 w3 : Word)
  | schedCancel (o : Origin) (slot : Fin 1024)
  | nop (f : Fire) (param : Word)
  | stageApply (f : Fire) (set : Fin 8) (retain : Bool) (eccBad : Bool)
  | modeSet (f : Fire) (p : PathNo) (m : Mode)
  | captureOpen (f : Fire) (st : StreamNo) (limit : Word)
  | captureClose (f : Fire) (st : StreamNo)
  | windowOpen (f : Fire) (pair : PathNo) (ctx : Fin 4) (label : BitVec 16)
  | windowClose (f : Fire) (pair : PathNo) (ctx : Fin 4)
  | spareSwap (f : Fire) (ip : PortNo) (inLane outLane : Fin 64)
  | rekeyStart (f : Fire) (old new : Fin 16)
  | rekeyPause (f : Fire) (old new : Fin 16)
  | rekeyResume (f : Fire) (old new : Fin 16)
  | rekeyRetire (f : Fire) (old new : Fin 16)
  | adaptFreeze (f : Fire) (scope : FreezeScope)
  | adaptUnfreeze (f : Fire) (scope : FreezeScope)
  | logMark (f : Fire) (value : Word)
  | stimStart (f : Fire) (p : PathNo) (generator : Bool)
  | stimStop (f : Fire) (p : PathNo)
  | triggerArm (f : Fire) (p : PathNo) (dirs : BitVec 2)
  | triggerDisarm (f : Fire) (p : PathNo) (dirs : BitVec 2)
  | markSend (f : Fire) (ip : PortNo) (value : Word)
  | anchorMatch (l : Fin 64) (pos : Nat) (levels : BitVec 128)
  | anchorMiss (l : Fin 64)
  | txShort (l : LaneNo) (legs : BitVec 2) (kind : Fin 4)
  | txShortRetest (l : LaneNo) (clean : Bool)
  | receiverDetection (l : LaneNo) (foundP foundN : Bool)
  | rxLos (l : LaneNo)
  | cdrUnlock (l : LaneNo)
  | berIntervalEnd (l : LaneNo) (samples : List (Fin 4 × Int))
  | dspError (l : LaneNo)
  | adaptationUpdate (l : LaneNo) (pos ctle : Nat) (eq : EqTaps) (req : PartnerReq)
  | pllUnlock (t : Nat) (q : QuadNo)
  | clockMonitor (t : Nat) (q : QuadNo)
  | calibration (q : QuadNo) (good : List Bool) (terms : List (Nat × Nat))
  | quadConfigEcc (q : QuadNo)
  | laneDozeEntry (l : LaneNo)
  | laneDozeExit (l : LaneNo)
  | mooredExitComplete (l : Fin 128)
  | wskPoint (l : LaneNo) (ctrl : BitVec 64)
  | wskRaster (l : LaneNo) (ctrl : BitVec 64)
  | wskMonitor (l : LaneNo) (ctrl : BitVec 64)
  | wskIdle (l : LaneNo) (ctrl : BitVec 64)
  | wskScanEnd (l : LaneNo) (cause : WskEnd) (points : List (List (Fin 4 × Int)))
  | marginingCommand (e : PcieEnd) (receiver : Fin 8) (cmd : MarginCmd)
  | adv (l : LaneNo) (bits : Timed (List Bool))
  | conf (l : LaneNo) (bits : Timed (List Bool))
  | hold (l : LaneNo) (bits : Timed (List Bool))
  | holdTimeout (ip : Timed PortNo)
  | negotiationEnd (t : Nat) (ip : PortNo)
  | partnerClassifyTimeout (l : Fin 128) (kind : Fin 5)
  | trainingFrame (l : Fin 64) (pos : Nat) (levels : BitVec 192)
  | precode (ip : PortNo) (mask : BitVec 18)
  | precodeAck (ip : PortNo) (mask : BitVec 18)
  | precodeStart (ip : PortNo) (pos : Fin 18)
  | testStart (ip : PortNo) (rate : Fin 4)
  | prbsTestEnd (ip : PortNo) (results : List PrbsResult)
  | testResult (ip : PortNo) (rate : Fin 4) (mask : BitVec 18)
  | offer (ip : PortNo) (rate : Fin 4)
  | accept (ip : PortNo) (rate : Fin 4)
  | decline (ip : PortNo) (rate : Fin 4)
  | done (ip : PortNo) (rate : Fin 4) (mask : BitVec 18)
  | ladderStepTimeout (ip : PortNo)
  | rateChangeIdleEnd (ip : PortNo)
  | tsOrderedSet (t : Nat) (e : PcieEnd) (inverted : Bool) (ts : TsSet)
  | eqEvaluationEnd (t : Nat) (p : PathNo) (side : Side)
  | electricalIdleEntry (p : PathNo) (dir : Dir) (mask : BitVec 16) (interval : Word) (offset : BitVec 16)
  | electricalIdleExit (p : PathNo) (dir : Dir) (mask : BitVec 16) (interval : Word) (offset : BitVec 16)
  | skpOrderedSet (t : Nat) (p : PathNo) (dir : Dir) (skp : SkpSet)
  | linkDown (p : PathNo)
  | anPage (p : PathNo) (dir : Dir) (page : BitVec 48) (resolved : Option (Fin 16))
  | segmentTrainingComplete (p : PathNo) (side : Side) (res : SegResult)
  | laneDrop (t : Nat) (ip : PortNo) (pos : Fin 18) (lost ber short : Bool)
  | routeTagMismatch (point : TagPoint) (seen : TagSeen)
  | drainEnd (t : Nat) (p : PathNo)
  | phase2Start (t : Nat) (p : PathNo)
  | flitTxBoundary (t : Nat) (ip : PortNo) (pos : Fin 18) (bad : Bool × Bool) (corrected : Option Nat)
  | flitLost (t : Nat) (ip : PortNo) (pos : Fin 18) (sym : Nat) (line : List (Fin 4))
  | data (t : Nat) (ip : PortNo) (flit : RxFlit) (units : List DecUnit)
  | lineEvent (t : Nat) (ip : PortNo) (flit : RxFlit)
  | refuse (t : Nat) (ip : PortNo) (flit : RxFlit)
  | ack (t : Nat) (ip : PortNo) (flit : RxFlit)
  | nak (t : Nat) (ip : PortNo) (flit : RxFlit)
  | idle (t : Nat) (ip : PortNo) (flit : RxFlit)
  | faultFlit (t : Nat) (ip : PortNo) (flit : RxFlit)
  | mark (t : Nat) (ip : PortNo) (flit : RxFlit)
  | beatEcho (t : Nat) (ip : PortNo) (flit : RxFlit)
  | tunnelStart (t : Nat) (ip : PortNo) (flit : RxFlit)
  | startAck (t : Nat) (ip : PortNo) (flit : RxFlit)
  | resume (t : Nat) (ip : PortNo) (flit : RxFlit)
  | resumeAck (t : Nat) (ip : PortNo) (flit : RxFlit)
  | drop (t : Nat) (ip : PortNo) (flit : RxFlit)
  | dropAck (t : Nat) (ip : PortNo) (flit : RxFlit)
  | swap (t : Nat) (ip : PortNo) (flit : RxFlit)
  | swapAck (t : Nat) (ip : PortNo) (flit : RxFlit)
  | swapRefuse (t : Nat) (ip : PortNo) (flit : RxFlit)
  | ctrlRepeat (t : Nat) (ip : PortNo)
  | spareTimeout (t : Nat) (ip : PortNo)
  | linkSilence (t : Nat) (ip : PortNo)
  | ackTimer (t : Nat) (ip : PortNo)
  | gapTimer (t : Nat) (ip : PortNo)
  | replayTimeout (t : Nat) (ip : PortNo) (seq : Seq)
  | echoTimer (t : Nat) (ip : PortNo)
  | packTimeout (t : Nat) (p : PathNo)
  | dToIReceive (t : Nat) (p : PathNo) (rx : DRx)
  | playoutSlot (t : Nat) (p : PathNo) (read : ReelRead)
  | slip (t : Nat) (p : PathNo)
  | sealTimeout (t : Nat) (st : StreamNo)
  | rowTimeout (t : Nat) (st : StreamNo)
  | serviceSlot (t : Nat) (slot : SlotRead)
  | hbmErrorWindow (h : Fin 4) (parityErrors : Nat)
  | selfRefreshFail (h : Fin 4)
  | hbmTempHigh (h : Fin 4) (celsius : Nat)
  | hbmControllerEcc (h : Fin 4)
  | journalCommit (t : Nat)
  | journalCommitComplete (t : Nat) (okA okB : Bool)
  | snapshot (t : Nat)
  | storeFlushTimeout (t : Nat) (st : StreamNo)
  | driveCommandComplete (d : Fin 16) (what : DriveDone)
  | driveCmdTimeout (d : Timed (Fin 16))
  | driveRemoved (d : Fin 16)
  | driveInserted (info : DriveInfo)
  | smartPoll (d : Fin 16) (critical : Bool)
  | storePortEvent (port : Fin 2) (ev : StorePortEvent)
  | durableLag (st : StreamNo)
  | journalStore (t : Nat)
  | preload (o : Origin) (st : StreamNo) (seq : Nat) (count : Nat)
  | splRelease (o : Origin) (st : StreamNo) (seq : Nat)
  | storeRelease (o : Origin) (st : StreamNo) (seq : Nat)
  | expectChunk (t : Nat) (ip : PortNo) (flit : RxFlit)
  | upload (t : Nat) (ip : PortNo) (flit : RxFlit)
  | captureRelease (t : Nat) (ip : PortNo) (flit : RxFlit)
  | statusReq (t : Nat) (ip : PortNo) (flit : RxFlit)
  | verdictFormed (t : Nat) (pair : PathNo) (ctx : Fin 4)
  | verdictEccError (pair : PathNo)
  | trainSlot (t : Nat) (rx : TrainRx)
  | trainRoundStart (t : Nat)
  | trainSlotSend (t : Nat) (readback : BitVec 400)
  | masterSilent (t : Nat)
  | peerAbsent (id : Fin 64)
  | graceExpiry (t : Nat) (source : Fin 2176)
  | safeStateExit (t : Nat) (p : PathNo)
  | fatalFlushEnd (t : Nat)
  | faultAck (o : Origin) (value : Word)
  | faultRecordPop (o : Origin) (value : Word)
  | refclkLoss (t : Nat)
  | coreClock (t : Nat)
  | d2dCorrected (die : Fin 4)
  | d2dUncorrected (die : Fin 4) (paths : BitVec 32)
  | d2dLinkLoss (die : Fin 4)
  | datapathConfigEcc (paths : BitVec 32)
  | datapathParity (expected : RouteTag)
  | spoolEcc
  | logEcc
  | ripcordEcc
  | ripcordMismatch
  | classCopyCompare (equal : Bool)
  | ripcordSelftest (ok : Bool)
  | envIntegrity (rights keyStore slotEcc : Bool) (index : Fin 256)
  | tempSample (t : Nat) (readings : List (Option Int))
  | supplyLow (supply : Fin 9) (tenthsMv : Nat)
  | supplyHigh (supply : Fin 9) (tenthsMv : Nat)
  | pinReadback (line : MonLine)
  | beatLine
  | trainLine
  | avsLoop (margin : Option Int) (lowTarget highTarget : Int) (readMv : Nat)
  | clockSwitchRequest (o : Origin) (value : Word)
  | muxHang (t : Nat) (d : Fin 206)
  | domainResetRelease (t : Nat) (d : Fin 206)
  | resetDevice (t : Nat) (o : Origin) (value : Word)
  | resetGondola (t : Nat) (o : Origin) (value : Word)
  | resetPath (t : Nat) (o : Origin) (value : Word)
  | resetDomain (t : Nat) (o : Origin) (value : Word)
  | deviceResetEnd (t : Nat)
  | dbgRstNThreshold (t : Nat)
  | stageAppend (o : Origin) (set : Fin 8) (addr value mask : Word)
  | stageClear (o : Origin) (set : Fin 8)
  | stagePathSwitch (t : Nat) (p : PathNo)
  | stageHeldRelease (t : Nat) (p : PathNo)
  | stageHeldRetry (t : Nat)
  | registerWrite (o : Origin) (addr value : Word)
  | wideRegisterRead (o : Origin) (addr : Word)
  | logRead (o : Origin) (value : Word)
  | imageUpdateStart (t : Nat) (o : Origin) (value : Word)
  | imageData (t : Nat) (m : MbNo) (msg : MbMsg) (readback : Bool) (busError : Bool)
  | imageUpdateTimeout (t : Nat)
  | keyLoad (o : Origin) (index : Fin 256)
  | keyGenerate (o : Origin) (index : Fin 256)
  | keyBind (o : Origin) (index : Fin 256) (slot : Fin 16)
  | keyUnbind (o : Origin) (slot : Fin 16)
  | keyClear (o : Origin) (index : Fin 256)
  | autoRekey (core : Fin 4) (index : Fin 256)
  | envMemRead (master : Fin 7) (addr : BitVec 64)
  | envMemWrite (master : Fin 7) (addr : BitVec 64) (words : List Word)
  | mailboxPost (t : Nat)
  | mailboxPop (t : Nat)
  | mailboxFlit (t : Nat) (ip : PortNo) (flit : RxFlit)
  | regRead (t : Nat) (m : MbNo) (msg : MbMsg)
  | regWrite (t : Nat) (m : MbNo) (msg : MbMsg)
  | clockSwitch (t : Nat) (m : MbNo) (msg : MbMsg)
  | hbmRetire (t : Nat) (m : MbNo) (msg : MbMsg)
  | version (t : Nat) (m : MbNo) (msg : MbMsg)
  | patchChunk (t : Nat) (m : MbNo) (msg : MbMsg)
  | patchCommit (t : Nat) (m : MbNo) (msg : MbMsg)
  | patchClear (t : Nat) (m : MbNo) (msg : MbMsg)
  | gonPatch
  | gonEcc (err : GonErr)
  | watchdogExpiry (t : Nat) (core : Fin 4) (doubleFault : Bool)
  | watchdogRestart (o : Origin) (value : Word)
  | quietDetect (t : Nat)
  | lockAcquire (t : Nat) (o : Origin) (n : Fin 16)
  | lockRelease (o : Origin) (n : Fin 16) (value : Word)
  | lockTimeout (t : Nat) (n : Fin 16)
  | mgmtAddr (bytes : List Byte) (pec : Option Bool)
  | mgmtWrite (bytes : List Byte) (pec : Option Bool)
  | mgmtRead (pec : Option Bool) (count : Nat)
  | mgmtStatus (pec : Option Bool)
  | rlen (bytes : List Byte) (pec : Option Bool)
  | alertResponse
  | entdaa (addr : BitVec 7)
  | setdasa (addr : BitVec 7)
  | rstdaa
  | enec
  | disec
  | getpid
  | getbcr
  | getdcr
  | getstatus
  | mgmtLine (t : Nat)
  | ibiRepeat (t : Nat) (accepted : Bool)
  | ident (t : Nat) (index : Word)
  | challenge (t : Nat) (arg : Word)
  | respond (t : Nat) (mac : BitVec 256)
  | endSession (t : Nat)
  | dbgRegRead (t : Nat) (addr : Word)
  | dbgRegWrite (t : Nat) (addr value : Word)
  | memRead (t : Nat) (hi lo : Word)
  | memWrite (t : Nat) (hi lo : Word) (words : List Word)
  | gmemRead (t : Nat) (mem addr : Word)
  | gmemWrite (t : Nat) (mem addr : Word) (words : List Word)
  | dbgHalt (t : Nat) (arg : Word)
  | dbgResume (t : Nat) (arg : Word)
  | dbgStep (t : Nat) (arg : Word)
  | dbgHaltOnStart (t : Nat) (arg : Word)
  | coreRead (t : Nat) (arg : Word)
  | coreWrite (t : Nat) (arg hi lo : Word)
  | bkptEnable (t : Nat) (arg addr : Word)
  | bkptDisable (t : Nat) (arg addr : Word)
  | breakpointHit (core : Fin 4) (unit : Fin 64)
  | dbgFrameAbandon
  | dbgCommandTimeout
  | challengeVoid (t : Nat)
  | lockoutEnd (t : Nat)
  | dbgSessionIdle (t : Nat)
  | cdrLock (l : LaneNo)
  | rxLosEnd (l : LaneNo)
  | blockLockLoss (l : LaneNo)
  | blockLockAcquired (l : LaneNo)
  | quadPllRelock (q : QuadNo)
  | supplyLowEnd (supply : Fin 9)
  | lineBackInRange (line : MonLine)
  | mgmtLinesHigh (t : Nat)
  | hbmTempHighEnd (h : Fin 4) (celsius : Nat)
  | storeLinkUp (port : Fin 2) (drives : List DriveInfo)
  | linkActive (t : Nat) (p : PathNo)
  | trainingTimeout (p : PathNo) (side : Side)
  | flitMalformed (t : Nat) (ip : PortNo) (flit : RxFlit)
  | schedCtrlFlit (t : Nat) (ip : PortNo) (flit : RxFlit)
  | dbgBadFrame (t : Nat) (unit : Nat) (lows : List Nat)
  | mgmtBadTransfer
  | unsupportedCcc (ccc : Byte)
  | coreTimer (core : Fin 4)
  | fatalPortTimeout (t : Nat)
deriving DecidableEq, Repr

end Sys2Proof
end

