-- ==== Sys2Proof/Decode.lean ====
section
/-! DEFINITION. The decoder over the table's rows. spec/opcode_table.json gives every row the field list [] and no bits, so
no word spells a command (notes/assumptions/1.md). -/

namespace Sys2Proof

/-- The command that a word of `nbits` bits spells by the table's bits: none, because no row gives bits. -/
def decodeTableWord (_nbits _w : Nat) : Option Instr := none

end Sys2Proof
end

