-- ==== Sys2Proof/Config.lean ====
section
/-! DEFINITION. What the spec leaves open, as constants without a body: the free values drawn in turn by a counter of the
state, and the cryptographic functions that the spec names by reference to published standards
(notes/assumptions/5.md). -/

namespace Sys2Proof.Config

/-- A free value: nothing is known of it. The step hands it the state's counter. -/
opaque freeValue : Nat → Nat

/-- SHA-384 of a byte string (R341, R388), by its published definition. -/
opaque sha384 : List Byte → BitVec 384

/-- The tag of a wrapped key record verifies under the KEK of a root identifier (R457). -/
opaque unwrapTagOk : List Byte → BitVec 64 → Bool

/-- The two XTS keys of a wrapped key record are equal (R457). -/
opaque xtsHalvesEqual : List Byte → Bool

/-- The wrapped form of the record that GENERATE makes from a random value (R459), given key identifier and root. -/
opaque wrapGenerated : Nat → BitVec 32 → BitVec 64 → List Byte

/-- First 256 bits of HMAC-SHA-384 keyed with the debug key inside a wrapped record, over a message (R514). -/
opaque debugMac : List Byte → List Byte → BitVec 256

/-- An ECDSA P-384 signature over bytes verifies under the public key of the running image (R503). -/
opaque signatureOk : List Byte → Bool

/-- The 32-byte word that a unit holds as stored, given the slot's key identifier, its address and its plaintext: the
XTS ciphertext of R451. -/
opaque cipherWord : BitVec 32 → Nat → List Byte → List Byte

/-- The AES-GCM ciphertext of a store block and its tag (R462), under the key of a wrapped record with an invocation counter, given
the authenticated bytes and the plaintext. -/
opaque gcmSeal : List Byte → Nat → List Byte → List Byte → List Byte

/-- The data of a fuse word after SECDED, none when it is uncorrectable (R439). -/
opaque fuseDecode : BitVec 40 → Option (BitVec 32)

/-- The group of R441 that a trim word belongs to: 0 temperature sensors, 1 supply monitors, 2 critical-path monitors, 3 PLL
seeds, 4 lane analog, 5 HBM interface. -/
opaque trimGroup : Nat → Nat

/-- The image key hash among the data of fuse words 152 to 203 (R392, R439). -/
opaque fusedKeyHash : List (BitVec 32) → BitVec 384

/-- The firmware version that the firmware of a generation reports (R342). -/
opaque firmwareVersion : BitVec 32 → BitVec 32

/-- The transmit taps c(-3) to c(+2) of a PCIe preset, which R86 leaves to the standard. -/
opaque pciePreset : Nat → List Int

/-- The input-referred voltage in mV of a number of ADC codes at a CTLE gain (R110), which the spec does not give. -/
opaque adcInputMv : Nat → Nat → Nat

/-- The seed coefficient of a rate that the lane DSP BLOBs of the image hold (R105), by index: 0 the CTLE peaking, 1 to 24 the FFE
taps, 25 the DFE tap. The spec does not give their layout. -/
opaque seedCoef : List (BitVec 8) → Nat → Nat → Int

/-- The bits of each lane of a SKP ordered set as the device sends it on (R121, R130): received at a PCIe rate code, with a number of
the standard's units added or removed, and with the retimer data parity of a retimer position written. The spec leaves the units and
the fields to the standard. -/
opaque skpForwarded : Nat → Int → Nat → List (List Bool) → List (List Bool)

/-- The 64-bit debug identity among the data of fuse words 152 to 203 (R439, R512). -/
opaque debugIdentity : List (BitVec 32) → BitVec 64

/-- The provisioned ID and the DCR that the I3C CCCs return (R489): the spec gives BCR alone. -/
opaque i3cPid : BitVec 48
opaque i3cDcr : BitVec 8

/-- A core's state word before anything wrote it: of core, run count and state index (R512, R479). -/
opaque coreWord : Nat → Nat → Nat → BitVec 64

/-- The first HBM row of a stream's window, which the Spool chooses (R253): of the stream and its rows. -/
opaque windowRow : Nat → Nat → Nat

/-- The result of a bounded unpredictable choice of R8 for a path: of what it concerns and its operands. -/
opaque hostError : Nat → Nat → Nat

end Sys2Proof.Config
end

