-- ==== Sys2Proof/Machine/Codec.lean ====
section
/-! DEFINITION. The codes of the wire and of records: bytes and bits, CRCs (R42, R78, R250, R337), the Reed-Solomon code
of R189, Manchester (R41), Gray and precoding (R72, R73), the anchor word (R75-R78) and the pattern sequences (R305). -/

namespace Sys2Proof.Machine

/-- The `n` bits of a number, most significant first. -/
def bitsOf : Nat → Nat → List Bool
  | 0, _ => []
  | n + 1, v => Nat.testBit v n :: bitsOf n v

/-- The number whose bits are given most significant first. -/
def ofBits (bs : List Bool) : Nat := bs.foldl (fun a b => 2 * a + (if b then 1 else 0)) 0

/-- The `n` bytes of a number, most significant first. -/
def bytesOf : Nat → Nat → List Byte
  | 0, _ => []
  | n + 1, v => BitVec.ofNat 8 (v / 256 ^ n) :: bytesOf n v

/-- The number whose bytes are given most significant first. -/
def ofBytes (bs : List Byte) : Nat := bs.foldl (fun a b => 256 * a + b.toNat) 0

/-- Bytes `i` to `i + n - 1` of a list as a number, a missing byte as 0. -/
def field (bs : List Byte) (i n : Nat) : Nat := ofBytes ((List.range n).map (fun k => bs.getD (i + k) 0))

/-- A list made exactly `n` long by cutting or by padding with `d`. -/
def fit {α : Type} (n : Nat) (d : α) (l : List α) : List α := l.take n ++ List.replicate (n - l.length) d

/-- One bit of a reflected or plain CRC of width `w` with polynomial `p`, most significant bit first. -/
def crcStep (w p : Nat) (r : Nat) (b : Bool) : Nat :=
  let top := Nat.testBit r (w - 1) != b
  let s := (2 * r) % 2 ^ w
  if top then s ^^^ p else s

/-- A CRC of width `w` over bits, most significant first. -/
def crcBits (w p init : Nat) (bs : List Bool) : Nat := bs.foldl (crcStep w p) init

/-- The bits of a byte, least significant first: the order of a reflected CRC. -/
def bitsRefl (b : Byte) : List Bool := (bitsOf 8 b.toNat).reverse

/-- The value of `w` bits in reversed order. -/
def reflect (w v : Nat) : Nat := ofBits (bitsOf w v).reverse

/-- CRC-8 of R42 over bits in transmission order. -/
def crc8 (bs : List Bool) : Nat := crcBits 8 0x07 0 bs

/-- CRC-16 of R337 over bits in transmission order. -/
def crc16 (bs : List Bool) : Nat := crcBits 16 0x1021 0xFFFF bs

/-- CRC-32C of R78 over bytes. -/
def crc32c (bs : List Byte) : Nat :=
  reflect 32 (crcBits 32 0x1EDC6F41 0xFFFFFFFF (bs.flatMap bitsRefl)) ^^^ 0xFFFFFFFF

/-- CRC-64 of R250 over bytes. -/
def crc64 (bs : List Byte) : Nat :=
  reflect 64 (crcBits 64 0x42F0E1EBA9EA3693 0xFFFFFFFFFFFFFFFF (bs.flatMap bitsRefl)) ^^^ 0xFFFFFFFFFFFFFFFF

/-- Multiplication by x in GF(2^8) with the field polynomial 0x11D (R189). -/
def gfX (a : Nat) : Nat := if a < 128 then 2 * a else (2 * a) ^^^ 0x11D

/-- Multiplication in GF(2^8), by the bits of the second factor. -/
def gfMul (a b : Nat) : Nat := (bitsOf 8 b).foldl (fun r x => gfX r ^^^ (if x then a else 0)) 0

/-- The generator polynomial (x + 1)(x + α)...(x + α^7) without its leading 1, highest degree first (R189). -/
def rsGen : List Nat := [255, 11, 81, 54, 239, 173, 200, 24]

/-- One data byte through the systematic encoder of R189. -/
def rsStep (par : List Nat) (d : Nat) : List Nat :=
  let f := d ^^^ par.headD 0
  (List.range 8).map (fun i => par.getD (i + 1) 0 ^^^ gfMul f (rsGen.getD i 0))

/-- The 8 parity bytes of a codeword's 136 data bytes (R189). -/
def rsParity (data : List Byte) : List Byte :=
  (data.foldl (fun p d => rsStep p d.toNat) (List.replicate 8 0)).map (BitVec.ofNat 8)

/-- The even-numbered or the odd-numbered elements of a list. -/
def everyOther {α : Type} : Bool → List α → List α
  | _, [] => []
  | true, x :: t => x :: everyOther false t
  | false, _ :: t => everyOther true t

/-- Two lists alternately. -/
def interleave {α : Type} : List α → List α → List α
  | x :: a, y :: b => x :: y :: interleave a b
  | a, [] => a
  | [], b => b

/-- The 272 content bytes of a flit (R188, R190). -/
def flitContent (header : BitVec 96) (payload : List Byte) : List Byte :=
  let c := bytesOf 12 header.toNat ++ fit 256 0 payload
  c ++ bytesOf 4 (crc32c c)

/-- The 288 wire bytes of a flit (R188, R189). -/
def flitWire (header : BitVec 96) (payload : List Byte) : List Byte :=
  let c := flitContent header payload
  c ++ interleave (rsParity (everyOther true c)) (rsParity (everyOther false c))

/-- A power of an element of GF(2^8). -/
def gfPow (a : Nat) : Nat → Nat
  | 0 => 1
  | n + 1 => gfMul a (gfPow a n)

/-- The inverse of an element of GF(2^8) other than 0. -/
def gfInv (a : Nat) : Nat := gfPow a 254

/-- The value of a polynomial, highest degree first. -/
def polyVal (x : Nat) (p : List Nat) : Nat := p.foldl (fun r c => gfMul r x ^^^ c) 0

/-- The elementwise sum of two polynomials, lowest degree first. -/
def polyAdd : List Nat → List Nat → List Nat
  | [], b => b
  | a, [] => a
  | x :: a, y :: b => (x ^^^ y) :: polyAdd a b

/-- The 8 syndromes of a word of a codeword's 144 symbols (R189). -/
def rsSyndromes (w : List Nat) : List Nat := (List.range 8).map (fun i => polyVal (gfPow 2 i) w)

/-- One step of the Berlekamp-Massey iteration on the state (locator, last locator, length, shift, last discrepancy). -/
def rsIter (syn : List Nat) (s : List Nat × List Nat × Nat × Nat × Nat) (n : Nat) : List Nat × List Nat × Nat × Nat × Nat :=
  let (c, b, len, m, last) := s
  let d := (List.range (len + 1)).foldl (fun r i => r ^^^ gfMul (c.getD i 0) (syn.getD (n - i) 0)) 0
  if d = 0 then (c, b, len, m + 1, last) else
  let k := gfMul d (gfInv last)
  let c' := polyAdd c (List.replicate m 0 ++ b.map (gfMul k))
  if 2 * len ≤ n then (c', c, n + 1 - len, 1, d) else (c', b, len, m + 1, last)

/-- The error locator of a received word, lowest degree first, and the number of errors that it names. -/
def rsLocator (syn : List Nat) : List Nat × Nat :=
  let r := (List.range 8).foldl (rsIter syn) ([1], [1], 0, 1, 1)
  (r.1, r.2.2.1)

/-- The error value at index `j` of a received word, 0 where the locator names none (R189): X · Ω(1/X) / Λ'(1/X). -/
def rsErrorAt (syn loc : List Nat) (j : Nat) : Nat :=
  let x := gfPow 2 (143 - j)
  let xi := gfInv x
  if polyVal xi loc.reverse ≠ 0 then 0 else
  let omega := (List.range 8).map (fun n => (List.range (n + 1)).foldl (fun r i => r ^^^ gfMul (loc.getD i 0) (syn.getD (n - i) 0)) 0)
  let deriv := (List.range loc.length).map (fun i => if i % 2 = 0 then loc.getD (i + 1) 0 else 0)
  gfMul x (gfMul (polyVal xi omega.reverse) (gfInv (polyVal xi deriv.reverse)))

/-- A received codeword (R189): its 136 data bytes with up to 4 byte errors corrected, and how many were; none where there are more. A
word whose parity holds has none. -/
def rsDecode (w : List Byte) : Option (List Byte × Nat) :=
  let data := w.take 136
  if rsParity data = w.drop 136 then some (data, 0) else
  let v := w.map (·.toNat)
  let syn := rsSyndromes v
  let loc := rsLocator syn
  let errs := (List.range 144).map (rsErrorAt syn loc.1)
  let fixed := ((v.zip errs).map (fun p => p.1 ^^^ p.2)).map (BitVec.ofNat 8)
  let cnt := (errs.filter (· != 0)).length
  if loc.2 ≤ 4 ∧ cnt = loc.2 ∧ rsParity (fixed.take 136) = fixed.drop 136 then some (fixed.take 136, cnt) else none

/-- What a receiver makes of the 288 bytes of a flit (R191): lost to the RS decoder or to the CRC, or its header and payload with the
symbols corrected. -/
inductive FlitRead where
  | lost (crc : Bool)
  | got (header : BitVec 96) (payload : List Byte) (corrected : Nat)
deriving DecidableEq, Repr, Inhabited

/-- Steps 1 and 2 of R191 on the wire bytes of a flit. -/
def flitRead (w : List Byte) : FlitRead :=
  let c := w.take 272
  let par := w.drop 272
  match rsDecode (everyOther true c ++ everyOther true par), rsDecode (everyOther false c ++ everyOther false par) with
  | some a, some b =>
    let c := interleave a.1 b.1
    if crc32c (c.take 268) = ofBytes (c.drop 268) then
      .got (BitVec.ofNat 96 (ofBytes (c.take 12))) ((c.drop 12).take 256) (a.2 + b.2)
    else .lost true
  | _, _ => .lost false

/-- Gray map of a bit pair to a PAM4 level (R72). -/
def grayLevel (b1 b0 : Bool) : Nat :=
  match b1, b0 with
  | false, false => 0
  | false, true => 1
  | true, true => 2
  | true, false => 3

/-- The bit pair of a PAM4 level (R72). -/
def grayBits (l : Nat) : Bool × Bool :=
  match l with
  | 0 => (false, false)
  | 1 => (false, true)
  | 2 => (true, true)
  | _ => (true, false)

/-- The levels of a list of bits taken in pairs. -/
def grayLevels : List Bool → List Nat
  | b1 :: b0 :: t => grayLevel b1 b0 :: grayLevels t
  | _ => []

/-- Precoding with the memory `m` (R73). -/
def precode (m : Nat) : List Nat → List Nat
  | [] => []
  | x :: t => let y := (x + 4 - m) % 4; y :: precode y t

/-- Recovery of precoded levels with the memory `m` (R73). -/
def unprecode (m : Nat) : List Nat → List Nat
  | [] => []
  | y :: t => (y + m) % 4 :: unprecode y t

/-- The symbols of a flit: its wire bytes, two bits to a symbol (R188, R72). -/
def flitLevels (header : BitVec 96) (payload : List Byte) : List Nat :=
  grayLevels ((flitWire header payload).flatMap (fun b => bitsOf 8 b.toNat))

/-- The fixed part of the anchor word (R76). -/
def anchorFixed : Nat := 0xE2B58F13

/-- The check of an identity field (R78). -/
def anchorCheck (ident : Nat) : Nat := crc32c (bytesOf 4 ident)

/-- The 64 levels of an anchor word (R75-R78). -/
def anchorLevels (ident : Nat) : List Nat :=
  (bitsOf 32 anchorFixed).map (fun b => if b then 3 else 0)
    ++ grayLevels (bitsOf 32 ident) ++ grayLevels (bitsOf 32 (anchorCheck ident))

/-- The identity field of R77. -/
def identity (tag pos phys count : Nat) : Nat :=
  (tag % 32) * 2 ^ 27 + (pos % 32) * 2 ^ 22 + (phys % 64) * 2 ^ 16 + count % 65536

/-- Levels of 128 bits, two bits each, first symbol highest. -/
def levelsOf (v : BitVec 128) : List Nat := (List.range 64).map (fun i => v.toNat / 4 ^ (63 - i) % 4)

/-- How many of two lists' paired elements differ. -/
def diffs (a b : List Nat) : Nat := ((a.zip b).filter (fun p => p.1 != p.2)).length

/-- What a received anchor word is (R80, R92): none, or its inversion and identity field. -/
def anchorDecode (v : BitVec 128) : Option (Bool × Nat) :=
  let lv := levelsOf v
  let fixed := (bitsOf 32 anchorFixed).map (fun b => if b then 3 else 0)
  let read (inv : Bool) : Option (Bool × Nat) :=
    let l := if inv then lv.map (3 - ·) else lv
    if diffs (l.take 32) fixed ≤ 3 then
      let bits := (l.drop 32).flatMap (fun x => [(grayBits x).1, (grayBits x).2])
      let ident := ofBits (bits.take 32)
      if ofBits (bits.drop 32) = anchorCheck ident then some (inv, ident) else none
    else none
  match read false with
  | some r => some r
  | none => read true

/-- Manchester decoding of half-cell levels; none on a coding error (R41). -/
def manchester : List Bool → Option (List Bool)
  | [] => some []
  | a :: b :: t =>
    match manchester t with
    | none => none
    | some r => if a == b then none else some (b :: r)
  | [_] => none

/-- The half-cells of a preamble: Manchester 1, 0, 1, 0 ... ending with 0 (R40, R41). -/
def preambleCells : List Bool := (List.range 6).flatMap (fun _ => [false, true, true, false])

/-- The half-cell levels of a sync (R40). -/
def syncCells : List Bool := [true, true, true, true, false, false, false, false]

/-- The Manchester half-cells of a row of bits (R41). -/
def manchesterCells (bits : List Bool) : List Bool := bits.flatMap (fun b => [!b, b])

/-- A preamble, a sync and Manchester cells as they are received (R40, R45, R334): the inversion that the sync shows, and the
bits; none on a coding error. -/
def burst (h : List Bool) : Option (Bool × List Bool) :=
  let inv := (h.drop 24).take 8 == syncCells.map (!·)
  let g := h.map (fun b => b != inv)
  if g.take 24 = preambleCells ∧ (g.drop 24).take 8 = syncCells then (manchester (g.drop 32)).map (inv, ·) else none

/-- The 400 half-cells of a train slot (R334). A released cell reads low (R339). -/
def slotCells (payload : BitVec 168) : BitVec 400 :=
  BitVec.ofNat 400 (ofBits (List.replicate 24 false ++ preambleCells ++ syncCells
    ++ manchesterCells (bitsOf 168 payload.toNat) ++ List.replicate 8 false))

/-- The inversion and the payload of a received train slot (R334, R338); none on a coding error. -/
def slotDecode (cells : BitVec 400) : Option (Bool × BitVec 168) :=
  (burst (((bitsOf 400 cells.toNat).drop 24).take 368)).map (fun p => (p.1, BitVec.ofNat 168 (ofBits p.2)))

/-- One step of the recurrence of R305: the new bit from the newest bits, newest first, for the taps of a polynomial
word (bit t - 1 for the term x^t). -/
def prbsBit (poly : Nat) (reg : List Bool) : Bool :=
  ((List.range 64).filter (fun t => Nat.testBit poly t)).foldl (fun a t => a != reg.getD t false) false

/-- `n` bits of the recurrence and the register after them (R305). -/
def prbs (poly : Nat) : Nat → List Bool → List Bool × List Bool
  | 0, reg => ([], reg)
  | n + 1, reg =>
    let b := prbsBit poly reg
    let (bs, r) := prbs poly n ((b :: reg).take 64)
    (b :: bs, r)

/-- The polynomial words of R305. -/
def prbsPoly (code user : Nat) : Nat :=
  match code with
  | 0 => 0x60
  | 1 => 0x110
  | 2 => 0x1803
  | 3 => 0x6000
  | 4 => 0x420000
  | 5 => 0x48000000
  | _ => user

/-- The degree of a polynomial word: the position of its highest set bit plus 1 (R305). -/
def polyDegree (poly : Nat) : Nat := if poly = 0 then 0 else Nat.log2 poly + 1

/-- `n` bits of PRBS31 from the seed of R307, most significant first as a number. -/
def prbs31Word (seed : Nat) : Nat :=
  let s := if seed % 2 ^ 31 = 0 then 1 else seed % 2 ^ 31
  ofBits (prbs 0x48000000 64 ((List.range 31).map (fun t => Nat.testBit s t))).1

/-! ### 8b/10b (R74, R140) -/

/-- The 6-bit sub-blocks abcdei of D.0 to D.31 at negative running disparity (PRESUMED, notes/assumptions/133.md). -/
def code6 : List Nat :=
  [0b100111, 0b011101, 0b101101, 0b110001, 0b110101, 0b101001, 0b011001, 0b111000,
   0b111001, 0b100101, 0b010101, 0b110100, 0b001101, 0b101100, 0b011100, 0b010111]
  ++ [0b011011, 0b100011, 0b010011, 0b110010, 0b001011, 0b101010, 0b011010, 0b111010,
   0b110011, 0b100110, 0b010110, 0b110110, 0b001110, 0b101110, 0b011110, 0b101011]

/-- The 4-bit sub-blocks fghj of D.x.0 to D.x.7 at negative running disparity, and the alternative of D.x.7. -/
def code4 : List Nat := [0b1011, 0b1001, 0b0101, 0b1100, 0b1101, 0b1010, 0b0110, 0b1110]
def code4Alt : Nat := 0b0111

/-- Ones among the low `n` bits. -/
def ones (n v : Nat) : Nat := ((bitsOf n v).filter (· == true)).length

/-- A sub-block of `n` bits at running disparity `rd` (true = positive), given that of negative disparity, and the disparity after it.
D.7 and D.x.3 are balanced and still alternate. -/
def subBlock (n v : Nat) (rd : Bool) : Nat × Bool :=
  let flips := ones n v != n / 2 || v == 0b111000 || (n == 4 && v == 0b1100)
  let u := if rd && flips then 2 ^ n - 1 - v else v
  (u, if ones n v == n / 2 then rd else !rd)

/-- The 10-bit code group of a data byte at a running disparity, bit a first, and the disparity after it. -/
def encode8b10b (rd : Bool) (b : Nat) : Nat × Bool :=
  let x := b % 32
  let y := b / 32 % 8
  let s6 := subBlock 6 (code6.getD x 0) rd
  let alt := y == 7 && (if s6.2 then [11, 13, 14].contains x else [17, 18, 20].contains x)
  let s4 := subBlock 4 (if alt then code4Alt else code4.getD y 0) s6.2
  (s6.1 * 16 + s4.1, s4.2)

/-- The comma K28.5 at a running disparity, and the disparity after it (R74). -/
def comma (rd : Bool) : Nat × Bool := (if rd then 0b1100000101 else 0b0011111010, !rd)

/-- The byte of a data code group at a running disparity, and the disparity after it; none where the group is no data character of
that column. -/
def decode8b10b (rd : Bool) (g : Nat) : Option (Nat × Bool) :=
  match (List.range 32).find? (fun x => (subBlock 6 (code6.getD x 0) rd).1 == g / 16) with
  | none => none
  | some x => ((List.range 8).map (fun y => x + 32 * y)).findSome? (fun b =>
      let e := encode8b10b rd b
      if e.1 == g then some (b, e.2) else none)

/-- Code groups decoded in turn. -/
def decodeGroups : Bool → List Nat → Option (List Nat)
  | _, [] => some []
  | rd, g :: t => match decode8b10b rd g with
    | none => none
    | some (b, rd) => (decodeGroups rd t).map (b :: ·)

/-- Data bytes encoded in turn, as line bits. -/
def encodeGroups : Bool → List Nat → List Bool
  | _, [] => []
  | rd, b :: t => let e := encode8b10b rd b; bitsOf 10 e.1 ++ encodeGroups e.2 t

/-- D5.6, the second character of a negotiation set, and D26.1, which it becomes on a reversed pair (R74). -/
def charNormal : Nat := 0b1010010110
def charReversed : Nat := 0b0101101001

/-- Line bits from the first comma on (R74). -/
def alignComma : List Bool → List Bool
  | [] => []
  | b :: t =>
    let g := ofBits ((b :: t).take 10)
    if 10 ≤ (b :: t).length ∧ (g = (comma false).1 ∨ g = (comma true).1) then b :: t else alignComma t

/-- What the line bits of a negotiation set are (R74, R92, R140): none where the code groups after the comma are not a polarity
character and nine data characters; else the inversion and the nine bytes. -/
def setDecode (bits : List Bool) : Option (Bool × List Nat) :=
  let raw := (alignComma bits).take 110
  let inv := ofBits ((raw.drop 10).take 10) == charReversed
  let bs := if inv then raw.map (!·) else raw
  let rd := ofBits (bs.take 10) == (comma false).1
  let groups := (List.range 10).map (fun i => ofBits ((bs.drop (10 + 10 * i)).take 10))
  if bs.length = 110 ∧ groups.headD 0 = charNormal then (decodeGroups rd (groups.drop 1)).map (fun x => (inv, x)) else none

/-- The line bits of a negotiation set of nine data bytes from a running disparity (R74, R140). -/
def setEncode (rd : Bool) (bytes : List Nat) : List Bool :=
  let k := comma rd
  bitsOf 10 k.1 ++ bitsOf 10 charNormal ++ encodeGroups k.2 bytes

/-! ### Training frames (R143) -/

/-- The PRBS13 polynomial x^13 + x^12 + x^2 + x + 1. -/
def prbs13 : Nat := 0x1803

/-- The levels of a training frame for a control word from a PRBS13 register, and the register after it (R143). -/
def frameLevels (control : Nat) (reg : List Bool) : List Nat × List Bool :=
  let r := prbs prbs13 8000 reg
  ((bitsOf 32 anchorFixed ++ bitsOf 64 control).map (fun b => if b then 3 else 0) ++ grayLevels r.1, r.2)

/-- What the first 96 levels of a training frame are (R80, R92, R143): none, or the inversion and the control word. An outer level is
taken by its half. -/
def frameDecode (v : BitVec 192) : Option (Bool × Nat) :=
  let lv := (List.range 96).map (fun i => v.toNat / 4 ^ (95 - i) % 4)
  let fixed := (bitsOf 32 anchorFixed).map (fun b => if b then 3 else 0)
  let read (inv : Bool) : Option (Bool × Nat) :=
    let l := if inv then lv.map (3 - ·) else lv
    let c := ofBits ((l.drop 32).map (fun x => decide (2 ≤ x)))
    if diffs (l.take 32) fixed ≤ 3 ∧ c % 256 = crc8 (bitsOf 56 (c / 256)) then some (inv, c) else none
  (read false).or (read true)

/-- Bits packed into bytes, most significant first, the last byte padded with 0. -/
def packBits : Nat → List Bool → List Byte
  | 0, _ => []
  | n + 1, bs => BitVec.ofNat 8 (ofBits (fit 8 false bs)) :: packBits n (bs.drop 8)

/-- The bits of bytes in order. -/
def unpackBits (bs : List Byte) : List Bool := bs.flatMap (fun b => bitsOf 8 b.toNat)

end Sys2Proof.Machine
end

