-- ==== Sys2Proof/Machine/Sources.lean ====
section
/-! DEFINITION. The 2,176 fault sources: their numbers (R352), default and minimum classes (R56, R100, R101, R119, R175,
R241, R293-R295, R327, R349, R354), their kinds (R357) and regimes (R356). -/

namespace Sys2Proof.Machine

/-- Source number of index `i` of data lane `l` (R352). -/
def srcLane (l i : Nat) : Nat := 10 * l + i
/-- Source number of index `i` of quad `q` (R352). -/
def srcQuad (q i : Nat) : Nat := 1280 + 4 * q + i
/-- Source number of index `i` of path slot `n` (R352). -/
def srcPath (n i : Nat) : Nat := 1408 + 16 * n + i
/-- Source number of store index `i` (R352). -/
def srcStore (i : Nat) : Nat := 1920 + i
/-- Source number of index `i` of stack `h` (R352). -/
def srcHbm (h i : Nat) : Nat := 2016 + 16 * h + i
/-- Source number of global index `i` (R352). -/
def srcGlobal (i : Nat) : Nat := 2080 + i

/-- Default class of a lane index (R100). -/
def laneDefault (i : Nat) : Nat := [2, 1, 1, 1, 1, 2, 1, 0, 0, 2].getD i 0
/-- Minimum class of a lane index (R100). -/
def laneMin (i : Nat) : Nat := [2, 0, 0, 0, 0, 1, 0, 0, 0, 2].getD i 0
/-- Default class of a quad index (R101). -/
def quadDefault (i : Nat) : Nat := [2, 2, 1, 2].getD i 0
/-- Minimum class of a quad index (R101). -/
def quadMin (i : Nat) : Nat := [2, 2, 1, 2].getD i 0
/-- Default class of a path index (R119, R175, R241, R293, R327, in the order of R353). -/
def pathDefault (i : Nat) : Nat := [2, 2, 2, 2, 2, 2, 2, 2, 1, 1, 1, 0, 0, 0, 0, 0].getD i 0
/-- Minimum class of a path index. -/
def pathMin (i : Nat) : Nat := [2, 2, 2, 2, 1, 2, 1, 1, 1, 0, 0, 0, 0, 0, 0, 0].getD i 0
/-- Default class of a store index (R295). -/
def storeDefault (i : Nat) : Nat :=
  if i < 64 then (if i % 4 = 3 then 2 else 1)
  else if i < 68 then 2
  else if i < 93 then (if i = 91 ∨ i = 92 then 2 else 1)
  else [1, 0, 1].getD (i - 93) 0
/-- Minimum class of a store index (R295). -/
def storeMin (i : Nat) : Nat :=
  if i < 64 then (if i % 4 = 3 then 2 else 0)
  else if i < 68 then 1
  else if i < 74 then 0
  else if i < 93 then (if i = 91 ∨ i = 92 then 2 else 1)
  else [0, 0, 1].getD (i - 93) 0
/-- Default class of a stack index (R294). -/
def hbmDefault (i : Nat) : Nat := [0, 1, 1, 0, 2, 2, 2, 2, 1, 1, 2, 2, 1, 2].getD i 0
/-- Minimum class of a stack index (R294). -/
def hbmMin (i : Nat) : Nat := [0, 0, 1, 0, 2, 2, 2, 2, 0, 1, 2, 2, 1, 2].getD i 0
/-- Default class of a global index (R354 with R56, R349 and R322). -/
def globalDefault (i : Nat) : Nat :=
  [1, 2, 0, 0, 0, 0, 0, 0, 1, 2, 2, 2, 1, 1, 1, 2, 0, 0, 1, 0, 0, 0, 0, 2, 2, 2, 2, 2, 2, 2, 2, 1,
   2, 2, 1, 0, 2, 3, 1, 1, 0, 2, 3, 1, 1, 2, 0, 3, 2, 1, 2, 2, 1, 1, 1, 1, 2, 2, 1, 2, 0, 1, 1, 2,
   1, 2, 2, 2, 2, 2, 1, 1, 1, 1, 0, 1, 1, 1, 0, 3, 3, 3].getD i 0
/-- Minimum class of a global index. -/
def globalMin (i : Nat) : Nat :=
  [0, 2, 0, 0, 0, 0, 0, 0, 1, 2, 1, 2, 0, 0, 0, 2, 0, 0, 0, 0, 0, 0, 0, 2, 2, 2, 2, 2, 2, 2, 2, 0,
   2, 2, 1, 0, 2, 3, 1, 1, 0, 2, 3, 1, 1, 2, 0, 3, 1, 0, 2, 1, 1, 1, 1, 1, 1, 2, 1, 1, 0, 0, 1, 2,
   1, 2, 2, 2, 2, 2, 1, 0, 0, 1, 0, 1, 0, 0, 0, 3, 3, 3].getD i 0

/-- Default class of a source (R355). -/
def srcDefault (s : Nat) : Nat :=
  if s < 1280 then laneDefault (s % 10)
  else if s < 1408 then quadDefault ((s - 1280) % 4)
  else if s < 1920 then pathDefault ((s - 1408) % 16)
  else if s < 2016 then storeDefault (s - 1920)
  else if s < 2080 then hbmDefault ((s - 2016) % 16)
  else globalDefault (s - 2080)

/-- Minimum class of a source (R355). -/
def srcMin (s : Nat) : Nat :=
  if s < 1280 then laneMin (s % 10)
  else if s < 1408 then quadMin ((s - 1280) % 4)
  else if s < 1920 then pathMin ((s - 1408) % 16)
  else if s < 2016 then storeMin (s - 1920)
  else if s < 2080 then hbmMin ((s - 2016) % 16)
  else globalMin (s - 2080)

/-- A condition source (R357). -/
def isCondition (s : Nat) : Bool :=
  if s < 1280 then s % 10 < 5 || s % 10 == 6
  else if s < 1408 then (s - 1280) % 4 < 2
  else if s < 1920 then false
  else if s < 2016 then
    let i := s - 1920
    i < 68 || i == 68 || i == 69 || i == 71 || i == 72 || (74 ≤ i && i < 95)
  else if s < 2080 then (s - 2016) % 16 == 4 || (s - 2016) % 16 == 9
  else [0, 9, 11, 12, 14, 32, 33, 36, 37, 38, 41, 42, 57, 61, 63, 70, 76, 77, 75].contains (s - 2080)

/-- A grouped source: the store lanes and store quads (R357). -/
def isGrouped (s : Nat) : Bool := 1920 ≤ s && s < 1988

/-- Always Fatal (R354). -/
def alwaysFatal (s : Nat) : Bool := [37, 42, 47, 79, 80, 81].contains (s - 2080) && 2080 ≤ s

/-- A clock-loss source (R356). -/
def clockLossSrc (s : Nat) : Bool := s == 2112 || s == 2113

/-- A global source in the line regime (R354). -/
def globalLine (s : Nat) : Bool := 2080 ≤ s && [23, 24, 25, 26, 27, 28, 29, 30, 66, 67].contains (s - 2080)

/-- A source that is never raised (R354, R294). -/
def neverRaised (s : Nat) : Bool :=
  2162 ≤ s || (2016 ≤ s && s < 2080 && 14 ≤ (s - 2016) % 16)

end Sys2Proof.Machine
end

