-- ==== Sys2Proof/Machine/Regs.lean ====
section
/-! DEFINITION. The register map (R526-R554): which words hold a register, what each holds after reset, and which of its
bits are staged, direct, set by the train-common section, or commands. -/

namespace Sys2Proof.Machine

/-- One register word: its reset value, the masks of its staged (S), direct (D) and train-common (T) bits, whether it is
a write-only command or data word, and whether only firmware and the debug wire may write it (F). A bit in no mask is RO
or RSV. -/
structure RegInfo where
  reset : Nat := 0
  st : Nat := 0
  di : Nat := 0
  tc : Nat := 0
  wo : Bool := false
  fw : Bool := false
deriving DecidableEq, Repr, Inhabited

/-- All 32 bits. -/
def allBits : Nat := 0xFFFFFFFF

/-- A read-only word. -/
def ro (reset : Nat := 0) : Option RegInfo := some { reset := reset }
/-- A staged word. -/
def rs (m : Nat) (reset : Nat := 0) : Option RegInfo := some { reset := reset, st := m }
/-- A direct word. -/
def rd (m : Nat) (reset : Nat := 0) : Option RegInfo := some { reset := reset, di := m }
/-- A write-only word. -/
def rw : Option RegInfo := some { wo := true }

/-- `o` lies among the `n` words from `a`. -/
def words (o a n : Nat) : Bool := a ≤ o && o < a + 4 * n

/-- GLB (R532). -/
def regGlb (o : Nat) : Option RegInfo :=
  if o = 0 then ro 0x06424B57
  else if o = 4 ∨ o = 8 then ro
  else if words o 0x10 4 then ro
  else if o = 0x20 then rw
  else if o = 0x24 then ro 0xF
  else if o = 0x30 then rd 0xFFFFFFFC
  else if o = 0x34 ∨ o = 0x38 then rd allBits
  else if o = 0x3C then rw
  else if words o 0x40 6 then ro
  else if o = 0x60 then rw
  else if o = 0x64 ∨ o = 0x80 then ro
  else if words o 0x84 7 then ro
  else if words o 0xC0 16 then ro
  else none

/-- BEAT and SCHED (R533). -/
def regBeat (o : Nat) : Option RegInfo :=
  if o = 0 ∨ o = 8 ∨ o = 0x10 ∨ o = 0x18 then ro
  else if o = 0xC then ro 0x80000000
  else if o = 0x14 then rs 0xFF
  else if words o 0x100 4 then rd allBits
  else if o = 0x110 then rw
  else if o = 0x114 then ro
  else if o = 0x120 then rd 0x3FF
  else if words o 0x130 4 then ro
  else none

/-- The reset value of FLT_CLASSk: the default classes of sources 16k to 16k + 15 (R355). -/
def classReset (k : Nat) : Nat := (List.range 16).foldl (fun a i => a + srcDefault (16 * k + i) * 4 ^ i) 0

/-- FLT (R535). -/
def regFlt (o : Nat) : Option RegInfo :=
  if words o 0 136 then rs allBits (classReset (o / 4))
  else if words o 0x400 136 then ro
  else if o = 0x800 then rw
  else if o = 0x804 then rs 0xFFFFFF 0x1388
  else if o = 0x808 then rs 0xF 0xE
  else if words o 0x80C 2 then ro
  else if words o 0x820 8 then ro
  else if o = 0x840 then rw
  else if o = 0x850 ∨ o = 0x854 then ro
  else if o = 0x858 then rd 0x80000000
  else none

/-- LOG (R536). -/
def regLog (o : Nat) : Option RegInfo :=
  if words o 0 8 then ro
  else if words o 0x20 2 then rd allBits
  else if o = 0x28 then ro
  else if words o 0x40 8 then ro
  else none

/-- TRN (R537). -/
def regTrn (o : Nat) : Option RegInfo :=
  if o = 0 then some { reset := 0x00010000, st := 0xBF, tc := 0xFF0100 }
  else if words o 8 2 then some { tc := allBits }
  else if words o 0x40 16 then some { tc := 0xFFFF0000 }
  else if words o 0x100 8 then ro
  else if words o 0x1000 512 then ro
  else none

/-- CRU (R538): domains 192, 202 and 205 ignore writes (R426), which keeps their bits out of every mask. -/
def regCru (o : Nat) : Option RegInfo :=
  if o = 0 then some { wo := true, fw := true }
  else if o = 4 then ro
  else if o = 0x10 then rs 0x1FFFFF 0x001A9514
  else if o = 0x14 then ro
  else if words o 0x1000 412 then (if o % 8 = 0 then rs 7 7 else ro)
  else none

/-- ENV (R540). -/
def regEnv (o : Nat) : Option RegInfo :=
  if words o 0 2 then ro
  else if o = 8 then rs 0x1FFFF
  else if o = 0x10 then rw
  else if o = 0x14 then ro
  else if o = 0x18 then rd 0xFF
  else if words o 0x20 4 then ro
  else if words o 0x40 40 then rw
  else if words o 0x100 40 then ro
  else if words o 0x200 4 then ro
  else if words o 0x300 14 then
    rs 0x77777777 (if (o - 0x300) / 8 = 4 ∨ (o - 0x300) / 8 = 6 then 0x11111111 else 0x66666666)
  else if o = 0x400 then rd allBits
  else if o = 0x404 then rd 0xFFFF
  else if o = 0x408 then rw
  else if o = 0x40C then ro
  else if words o 0x420 8 then rd allBits
  else none

/-- GON (R541). -/
def regGon (o : Nat) : Option RegInfo :=
  if words o 0 3 then ro
  else if o = 0x10 then some { wo := true, fw := true }
  else if o = 0x20 then rd 1 1
  else if o = 0x24 then ro
  else if o = 0x40 then rw
  else if o = 0x44 then ro 0x8000
  else if words o 0x100 64 then rd allBits
  else if words o 0x200 64 then ro
  else if words o 0x400 8 then some { di := 0x1F01, fw := true }
  else if words o 0x420 8 then rd 0x1F01
  else if words o 0x800 288 then some { di := allBits, reset := 0x11111111, fw := true }
  else if words o 0x1000 64 then some { di := allBits, fw := true }
  else none

/-- DBG (R542). -/
def regDbg (o : Nat) : Option RegInfo :=
  if o = 0 then ro 0x06424B57
  else if o = 4 then ro
  else if o = 8 then rs 0xFFFF
  else if words o 0x10 4 then ro
  else none

/-- PATH n (R543). -/
def regPath (o : Nat) : Option RegInfo :=
  if o = 0 then rs 0xFF00FFFF
  else if o = 4 then rs 0xFFFF0000
  else if o = 8 then ro
  else if o = 0xC then rs 0x1FF 3
  else if o = 0x10 then rs 0x17 6
  else if o = 0x14 then ro
  else none

/-- BRD (R545). -/
def regBrd (o : Nat) : Option RegInfo :=
  if o < 0x800 then
    let p := o % 0x40
    if p = 0 then rs 0xFF1F
    else if words p 0x10 4 then rs 0x3F3F3F3F
    else if p = 0x20 then rs 0x3F3F
    else if words p 0x30 3 then ro
    else none
  else if 0x1000 ≤ o ∧ o < 0x1200 ∧ o % 16 = 0 then rs 0xFF3F
  else none

/-- QLE n (R546). -/
def regQle (o : Nat) : Option RegInfo :=
  if o = 0 then rs 0xFFFFCB00 0x00010300
  else if o = 4 then rs allBits 0x00010000
  else if words o 8 2 then ro
  else if o = 0x10 then rs 0xFFFFFF1F 0x044C4008
  else if o = 0x14 then rs allBits 0x006403E8
  else if words o 0x20 6 then ro
  else if words o 0x40 4 then ro
  else if words o 0x50 2 then ro
  else none

/-- VRD n (R547, R548). -/
def regVrd (o : Nat) : Option RegInfo :=
  if o = 0 then rs 0xF
  else if words o 8 2 then rs allBits
  else if o = 0x10 then rs 0xFFC3FFFF
  else if words o 0x14 2 then rs 0x3FFFF
  else if o = 0x20 then rs 0xFFFF0017 5
  else if words o 0x28 2 then rs allBits
  else if o = 0x30 then rs allBits 1
  else if o = 0x34 then rs allBits
  else if o = 0x38 then rs 0xF
  else if words o 0x40 2 then rs allBits
  else if o = 0x48 then rs allBits 0x40
  else if o = 0x4C then rs allBits
  else if words o 0x50 2 then rs allBits allBits
  else if 0x100 ≤ o ∧ o < 0x300 then
    let p := o % 0x40
    if p = 0 then rs 0xC1FFFFFF else if p < 0x10 then ro else rs allBits
  else if 0x400 ≤ o ∧ o < 0x500 then
    let p := o % 0x40
    if p = 0 then rs 0xFFFFFF03
    else if p = 4 then rs 0x3F3F 0xC10
    else if p = 8 then rs allBits
    else if p = 0xC then rs 0xFFFF
    else if words p 0x10 2 then rs allBits allBits
    else if p = 0x18 then ro
    else none
  else if 0x800 ≤ o ∧ o < 0xC00 then (if o % 0x100 < 160 then ro else none)
  else if o = 0xC00 then rd 0x3F
  else if words o 0xC40 96 then ro
  else if o = 0xE00 then ro
  else none

/-- SPL (R549). -/
def regSpl (o : Nat) : Option RegInfo :=
  if o = 0 then rd 0x03FF0003
  else if words o 4 3 then rd allBits
  else if o = 0x10 then ro
  else if 0x10000 ≤ o ∧ o < 0x14000 then
    let p := o % 16
    if p = 0 then rs 0xFFFFFFE7 else if p = 0xC then rs allBits else rs 0xFFFFFF
  else if 0x20000 ≤ o ∧ o < 0x30000 then ro
  else if 0x30000 ≤ o ∧ o < 0x32000 then
    let n := (o - 0x30000) / 0x100
    let p := o % 0x100
    if p = 0 then rs 0x3FFFFFFF ((160 + n) * 2 ^ 20 + (128 + n) * 2 ^ 10 + 96 + n)
    else if p = 4 then ro
    else if words p 0x20 4 then ro
    else if words p 0x40 48 then
      let r := (p - 0x40) % 0x30
      if r = 0 then rs 7 else if r < 0x24 then rs allBits else none
    else none
  else none

/-- HBC n (R550): the pc map entries read the power-on map. -/
def regHbc (o : Nat) : Option RegInfo :=
  if o = 0 then rs 0xFFFF00FF 0x03E80010
  else if o = 4 then rs allBits 0x003C0064
  else if words o 0x10 8 then ro
  else if words o 0x30 2 then ro
  else none

/-- Lane template (R553). -/
def regLane (o : Nat) : Option RegInfo :=
  if o = 0 then rs 0x3FEF 0x1A00
  else if o = 4 then ro 0xFF000000
  else if o = 0x10 then rs 0x7F7F7F7F 0x30780000
  else if o = 0x14 then rs 0x003F7F7F 0x00180078
  else if o = 0x18 then rs 0xFFFF1F1F 0xFFFF1800
  else if o = 0x20 then rs 0x7F7F7F7F 0x40404040
  else if o = 0x24 then rs 0x07FF7F7F 0x07FF1040
  else if o = 0x30 then rs 0x7F3F 0x1E
  else if o = 0x34 then rs allBits 0x5400
  else if words o 0x40 2 then ro
  else if o = 0x50 then rd 0xFFFFF303
  else if o = 0x54 then rd 0xFFFF
  else if o = 0x58 then ro
  else if words o 0x100 1024 then ro
  else none

/-- STO with the store lanes and quads (R551). -/
def regSto (o : Nat) : Option RegInfo :=
  if o = 0 then rs 0x03FF00FF 0x0001001A
  else if o = 4 then rs 0xFFFF 0x3E8
  else if o = 8 then rs 0xFFFF 0x1388
  else if o = 0xC then rs 0xFFFF 0x3E8
  else if words o 0x10 8 then rs allBits
  else if words o 0x40 4 then ro
  else if 0x1000 ≤ o ∧ o < 0x5000 then (if o % 8 = 0 then rs allBits else rs 3)
  else if 0x8000 ≤ o ∧ o < 0x8200 then ro
  else if 0x40000 ≤ o ∧ o < 0x80000 then regLane (o % 0x4000)
  else if 0x80000 ≤ o ∧ o < 0x84000 ∧ o % 0x1000 = 0 then ro
  else none

/-- Lane die registers (R552-R554). -/
def regDie (o : Nat) : Option RegInfo :=
  if o < 0x80000 then regLane (o % 0x4000)
  else if 0x800000 ≤ o ∧ o < 0x808000 ∧ o % 0x1000 = 0 then ro
  else if o = 0x900000 then ro
  else none

/-- The blocks that a register address may lie in (R531), with the instance and the offset. -/
inductive Block where
  | glb | beat | flt | log | trn | cru | env | gon | dbg | path (n : Nat) | brd | qle (n : Nat) | vrd (n : Nat) | spl
  | hbc (n : Nat) | sto | die (j : Nat)
deriving DecidableEq, Repr

/-- The block and offset of an address (R531). -/
def blockOf (a : Nat) : Option (Block × Nat) :=
  let o := a % 0x10000
  if a < 0x10000 then some (.glb, o)
  else if a < 0x20000 then some (.beat, o)
  else if a < 0x30000 then some (.flt, o)
  else if a < 0x40000 then some (.log, o)
  else if a < 0x50000 then some (.trn, o)
  else if a < 0x60000 then some (.cru, o)
  else if a < 0x70000 then some (.env, o)
  else if a < 0x80000 then some (.gon, o)
  else if a < 0x90000 then some (.dbg, o)
  else if a < 0x100000 then none
  else if a < 0x120000 then some (.path ((a - 0x100000) / 0x1000), a % 0x1000)
  else if a < 0x200000 then none
  else if a < 0x210000 then some (.brd, o)
  else if a < 0x300000 then none
  else if a < 0x320000 then some (.qle ((a - 0x300000) / 0x1000), a % 0x1000)
  else if a < 0x400000 then none
  else if a < 0x420000 then some (.vrd ((a - 0x400000) / 0x1000), a % 0x1000)
  else if a < 0x500000 then none
  else if a < 0x600000 then some (.spl, a - 0x500000)
  else if a < 0x640000 then some (.hbc ((a - 0x600000) / 0x10000), o)
  else if a < 0x700000 then none
  else if a < 0x800000 then some (.sto, a - 0x700000)
  else if a < 0x10000000 then none
  else if a < 0x14000000 then some (.die ((a - 0x10000000) / 0x1000000), a % 0x1000000)
  else none

/-- The register word at an address, none where no register stands (R526). -/
def regInfo (a : Nat) : Option RegInfo :=
  if a % 4 ≠ 0 then none else
  match blockOf a with
  | none => none
  | some (b, o) =>
    match b with
    | .glb => regGlb o
    | .beat => regBeat o
    | .flt => regFlt o
    | .log => regLog o
    | .trn => regTrn o
    | .cru =>
      if words o 0x1000 412 ∧ o % 8 = 0 ∧ ((o - 0x1000) / 8 = 192 ∨ (o - 0x1000) / 8 = 202 ∨ (o - 0x1000) / 8 = 205)
      then ro 7 else regCru o
    | .env => regEnv o
    | .gon => regGon o
    | .dbg => regDbg o
    | .path _ => regPath o
    | .brd => regBrd o
    | .qle _ => regQle o
    | .vrd _ => regVrd o
    | .spl => regSpl o
    | .hbc _ => regHbc o
    | .sto => regSto o
    | .die _ => regDie o

/-- The reset value of the register word at an address, 0 where no register stands. -/
def regReset (a : Nat) : Word :=
  match regInfo a with
  | none => 0
  | some i => BitVec.ofNat 32 i.reset

/-- Base address of the registers of lane `l` in the numbering of R58 (R552, R551). -/
def laneBase (l : Nat) : Nat :=
  if l < 128 then 0x10000000 + (l / 32) * 0x1000000 + (l % 32) * 0x4000
  else 0x740000 + (l - 128) * 0x4000

/-- The lane whose registers hold an address (R552, R551). -/
def laneOfAddr (a : Nat) : Option Nat :=
  match blockOf a with
  | some (.die j, o) => if o < 0x80000 then some (32 * j + o / 0x4000) else none
  | some (.sto, o) => if 0x40000 ≤ o ∧ o < 0x80000 then some (128 + (o - 0x40000) / 0x4000) else none
  | _ => none

end Sys2Proof.Machine
end

