-- ==== Sys2Proof/Machine/Tbl.lean ====
section
/-! DEFINITION. Sparse tables: a list of keys and values in one canonical form (keys strictly rising, no entry equal to
what an unlisted key reads as). Every table and memory of the state is one of these. -/

namespace Sys2Proof.Machine

/-- A sparse table: what is listed differs from what an unlisted key reads as. -/
structure Tbl (α : Type) where
  entries : List (Nat × α) := []
deriving DecidableEq, Repr, Inhabited

/-- The value of key `k` in a list of entries, `d` when it lists none. -/
def Tbl.find {α : Type} (d : α) (k : Nat) : List (Nat × α) → α
  | [] => d
  | (k', v) :: t => if k' = k then v else Tbl.find d k t

/-- The entries without key `k`. -/
def Tbl.erase {α : Type} (k : Nat) : List (Nat × α) → List (Nat × α)
  | [] => []
  | (k', v) :: t => if k' = k then Tbl.erase k t else (k', v) :: Tbl.erase k t

/-- The entries with key `k` set to `v`, in rising order of keys. -/
def Tbl.insert {α : Type} (k : Nat) (v : α) : List (Nat × α) → List (Nat × α)
  | [] => [(k, v)]
  | (k', v') :: t =>
    if k < k' then (k, v) :: (k', v') :: t
    else if k' = k then (k, v) :: t
    else (k', v') :: Tbl.insert k v t

/-- Read key `k` of a table whose unlisted key `k` reads as `d`. -/
def Tbl.get {α : Type} (t : Tbl α) (d : α) (k : Nat) : α := Tbl.find d k t.entries

/-- Write key `k` of a table whose unlisted key `k` reads as `d`: writing `d` removes the entry. -/
def Tbl.set {α : Type} [DecidableEq α] (t : Tbl α) (d : α) (k : Nat) (v : α) : Tbl α :=
  if v = d then ⟨Tbl.erase k t.entries⟩ else ⟨Tbl.insert k v t.entries⟩

/-- Change every listed value, none of whose keys reads as anything but `d` unlisted. -/
def Tbl.map {α : Type} [DecidableEq α] (d : α) (f : α → α) (t : Tbl α) : Tbl α :=
  ⟨(t.entries.map (fun e => (e.1, f e.2))).filter (fun e => decide (e.2 ≠ d))⟩

/-- Keep the entries whose key meets `f`: the others read as unlisted again. -/
def Tbl.keep {α : Type} (f : Nat → Bool) (t : Tbl α) : Tbl α := ⟨t.entries.filter (fun e => f e.1)⟩

/-- The keys rise strictly from above `lo`, and no entry equals what its key reads as unlisted. -/
def Tbl.wfFrom {α : Type} [DecidableEq α] (d : Nat → α) : Option Nat → List (Nat × α) → Bool
  | _, [] => true
  | lo, (k, v) :: t =>
    (match lo with | none => true | some l => decide (l < k)) && decide (v ≠ d k) && Tbl.wfFrom d (some k) t

/-- The canonical form, for a table whose unlisted key `k` reads as `d k`. -/
def Tbl.wf {α : Type} [DecidableEq α] (d : Nat → α) (t : Tbl α) : Bool := Tbl.wfFrom d none t.entries

end Sys2Proof.Machine
end

