-- ==== Sys2Proof/Machine/State.lean ====
section
/-! DEFINITION. The state of the block as plain data, the state right after power-on reset begins, and the reasons a
step can stop. Each field's docstring gives, in square brackets, its width, the file and rule of spec/ that names it, and
its reset value; DC marks a value the spec does not give (notes/assumptions/3.md). -/

namespace Sys2Proof.Machine

/-- What stops the model. No command of this block stops it: every row of the table has an effect, or is without one in a
state where its event cannot happen (notes/assumptions/4.md), so nothing raises this fault. Safe. -/
inductive Fault where
  /-- An access outside the Spool address space; reserved, raised by no command. Safe. -/
  | outsideSpace
deriving DecidableEq, Repr

/-- Why a command is turned away. -/
inductive Refusal where
  /-- The dispatch arm of a command that has no meaning yet; none is left. Safe. -/
  | notModelled (mnemonic : String)
deriving DecidableEq, Repr

/-! ### Power, boot and analog -/

/-- Power-on sequence, device reset, straps, fuses, Fatal, temperatures, supplies and AVS. -/
structure PwrSt where
  /-- Power-on reset is in force. [1; 12 R433; 1] -/
  por : Bool := true
  /-- Device reset is in force. [1; 12 R433; 0] -/
  dev : Bool := false
  /-- The device reset in force was asked for by DBG_RST_N. [1; 12 R433; 0] -/
  devByPin : Bool := false
  /-- DBG_RST_N is held low past the threshold. [1; 15 R508; 0] -/
  rstLow : Bool := false
  /-- Instant of entry to the device reset. [time; 12 R433; 0] -/
  devSince : Nat := 0
  /-- Completed steps of the start sequence, bit k = step k. [11; 12 R436; 0] -/
  steps : BitVec 11 := 0
  /-- REFCLK or a core clock is lost and the clock-loss path holds. [1; 10 R373; 0] -/
  clkLost : Bool := false
  /-- Instant from which the count of REFCLK edges may run: the supplies are good, or the clock was lost. [time; 12 R422; 0] -/
  refSince : Nat := 0
  /-- Instant at which the Fatal flush ended. [time; 10 R371; DC 0] -/
  flushAt : Nat := 0
  /-- GLB_STRAP, the sampled straps. [32; 16 R532; DC 0 until sampled] -/
  strap : Word := 0
  /-- Marginal fuse words. [204; 12 R440; DC 0 until read] -/
  fuseMarg : BitVec 204 := 0
  /-- Blank fuse words. [204; 12 R440; DC 0 until read] -/
  fuseBlank : BitVec 204 := 0
  /-- The fuse latches: the value used of each word. [204 x 32; 12 R439; DC 0 until read] -/
  fuse : Tbl (BitVec 32) := {}
  /-- ENV_ROOT_ID. [64; 16 R540; DC 0 until read] -/
  rootId : BitVec 64 := 0
  /-- The Fatal latch. [1; 10 R371; 0] -/
  fatal : Bool := false
  /-- Source that set the Fatal latch. [12; 10 R371; DC 0] -/
  fatalSrc : Nat := 0
  /-- Instant of the Fatal latch. [time; 10 R371; DC 0] -/
  fatalAt : Nat := 0
  /-- The store host has stopped, HBM is in self-refresh and key slots are cleared after Fatal. [1; 10 R371; 0] -/
  fatalDone : Bool := false
  /-- Every data transmitter is at high impedance after supply_high. [1; 10 R371; 0] -/
  txHiZ : Bool := false
  /-- GLB_TEMP0-15 in quarter degrees C. [16 x 16; 16 R532; DC 0] -/
  temp : Tbl Int := {}
  /-- Supply monitors below their operating minimum. [9; 10 R354; DC 0] -/
  low : BitVec 9 := 0
  /-- Voltage last commanded on AVSBus, mV. [10; 12 R443; DC 0] -/
  avsCmd : Nat := 0
  /-- Voltage last read on AVSBus, mV. [10; 12 R443; DC 0] -/
  avsRead : Nat := 0
  /-- The AVS loop runs (enabled by firmware). [1; 12 R444; 0] -/
  avsRun : Bool := false
  /-- The loop is held at its floor. [1; 12 R443; 0] -/
  avsFloor : Bool := false
  /-- The loop is held at its ceiling. [1; 12 R443; 0] -/
  avsCeil : Bool := false
  /-- Consecutive failed AVSBus transactions. [2; 12 R442; 0] -/
  avsFail : Nat := 0
  /-- The device reset in force follows a clock loss. [1; 10 R374; 0] -/
  clkReset : Bool := false
  /-- Refused register writes. [16; 16 R532; 0] -/
  refused : Nat := 0
  /-- Data lanes are Moored after the Fatal flush. [1; 10 R371; 0] -/
  fatalPorts : Bool := false
deriving DecidableEq, Repr, Inhabited

/-- One clock domain (R424). -/
structure DomSt where
  /-- Multiplexer input selected. [2; 12 R428; 0] -/
  input : Nat := 0
  /-- Input of the switch in progress. [2; 12 R428; none] -/
  switching : Option Nat := none
  /-- Instant at which the switch began. [time; 12 R430; DC 0] -/
  since : Nat := 0
  /-- The domain reset is asserted. [1; 12 R430; 0] -/
  inReset : Bool := false
  /-- Missing-edge monitors of inputs 2, 1 and 0 report edges. [3; 16 R538; DC 7] -/
  mon : BitVec 3 := 7
  /-- The PLL on input 1 is locked. [1; 16 R538; DC 0] -/
  lock : Bool := false
deriving DecidableEq, Repr, Inhabited

/-! ### Registers -/

/-- Register state that is not in a block of its own. -/
structure RegSt where
  /-- Stored values of the RW, RWS and WO-data registers; an unlisted address holds its reset value. [32 each; 16 R529;
  the Reset column] -/
  file : Tbl Word := {}
  /-- Words of retrain fields that the hardware uses until the bring-up that brings the registers' values into force, by address, each
  with its path. [5 + 32 each; 11 R406, R408; none] -/
  old : Tbl (Option (Nat × Word)) := {}
  /-- The latched upper words of each wide register, by the address of its word 0; none before its word 0 was read. [32 each;
  16 R527; DC none] -/
  latch : Tbl (Option (List Word)) := {}
deriving DecidableEq, Repr, Inhabited

/-! ### Beat and schedule -/

/-- The states of the beat scheduler, with the codes of R50. -/
inductive BeatState where
  | none | acquiring | locked | lost
deriving DecidableEq, Repr, Inhabited

/-- A beat frame between its decoding and its local edge (R48). -/
structure PendFrame where
  index : Nat
  flags : BitVec 8
  inverted : Bool
  edge : Nat
  /-- The delay with which the edge was reckoned (R49). -/
  delay : Nat := 0
deriving DecidableEq, Repr, Inhabited

/-- The beat scheduler. -/
structure BeatSt where
  /-- Scheduler state. [2; 02 R50; 0] -/
  st : BeatState := .none
  /-- Index of the last accepted frame. [48; 02 R51; DC 0] -/
  index : Nat := 0
  /-- Instant of the last accepted local edge. [time; 02 R51; DC 0] -/
  edge : Nat := 0
  /-- The learned period in 0.25 ns units. [32; 02 R52; none] -/
  period : Option Nat := none
  /-- A frame was ignored since the last accepted edge. [1; 02 R52; 0] -/
  gap : Bool := false
  /-- Decoded frames whose local edges are still to come, oldest first. [R48; 02 R48; empty] -/
  pend : List PendFrame := []
  /-- BEAT_STATUS.inverted: polarity of the last accepted frame. [1; 02 R45; 0] -/
  inverted : Bool := false
  /-- Polarity of the previous accepted frame exists. [1; 02 R45; 0] -/
  hasPol : Bool := false
  /-- BEAT_STATUS.user_flags. [4; 02 R46; 0] -/
  user : BitVec 4 := 0
  /-- Flags of the last accepted frame. [8; 02 R46; DC 0] -/
  flags : BitVec 8 := 0
  /-- BEAT_COUNT frame errors. [16; 16 R533; 0] -/
  frameErr : Nat := 0
  /-- BEAT_COUNT short intervals. [16; 16 R533; 0] -/
  short : Nat := 0
  /-- Pre-beat sequence number. [60; 00 R5; 0] -/
  preNum : Nat := 0
  /-- The beat-domain clock in which the last pre-beat stamp was taken. [time; 00 R5; none] -/
  preClk : Option Nat := none
  /-- The beat time held or last reached. [60; 02 R50; DC 0] -/
  held : Nat := 0
  /-- BEAT_COMP.delay_ns of the last accepted edge. [8; 02 R49; DC 0] -/
  delay : Nat := 0
  /-- The learned period without a change of the delay. [32; 02 R49; none] -/
  perNet : Option Nat := none
deriving DecidableEq, Repr, Inhabited

/-- A schedule entry (R57). -/
structure SchedEnt where
  valid : Bool := false
  w0 : Word := 0
  w1 : Word := 0
  w2 : Word := 0
  w3 : Word := 0
  origin : Origin := .hardware
deriving DecidableEq, Repr, Inhabited

/-- The schedule table. -/
structure SchedSt where
  /-- The entries. [1024 x 4 x 32; 02 R57; empty] -/
  ent : Tbl SchedEnt := {}
  /-- SCHED_STATUS.result. [3; 02 R59; 0] -/
  result : Nat := 0
  /-- SCHED_STATUS.refused_count. [16; 02 R65; 0] -/
  refused : Nat := 0
deriving DecidableEq, Repr, Inhabited

/-! ### Logbook -/

/-- A Logbook entry (R411). -/
structure LogEnt where
  seq : Nat
  time : BitVec 64
  kind : Byte
  origin : Byte
  detail : BitVec 16
  target : Word
  a : Word
  b : Word
deriving DecidableEq, Repr, Inhabited

/-- The Logbook. -/
structure LogSt where
  /-- Entries in the ring, newest first. [32768 x 256; 11 R410; empty] -/
  ring : List LogEnt := []
  /-- Number of entries in the ring. [16; 11 R410; 0] -/
  used : Nat := 0
  /-- Newest sequence number. [64; 11 R416; 0] -/
  newest : Nat := 0
  /-- Highest sequence number mirrored. [64; 11 R416; DC 0] -/
  mirrored : Nat := 0
  /-- LOG_STATUS.info_lost. [32; 11 R415; 0] -/
  infoLost : Nat := 0
  /-- Entries of the ring already handed to LOG records not yet accepted, and the instant of the first one that is not. [64, time; 11
  R410, R418; DC 0] -/
  recorded : Nat := 0
  since : Nat := 0
  /-- A LOST entry is due when normal room returns. [1; 11 R415; 0] -/
  lostDue : Bool := false
  /-- log_mirror was raised for the present lag. [1; 11 R410; 0] -/
  mirrorLate : Bool := false
  /-- LOG_READ_STATUS: valid and gone. [2; 16 R536; 0] -/
  readStatus : BitVec 2 := 0
  /-- LOG_READ_DATA0-7. [256; 16 R536; 0] -/
  readData : List Word := []
deriving DecidableEq, Repr, Inhabited

/-! ### Ripcord -/

/-- One fault source (R358). -/
structure SrcSt where
  /-- 0 IDLE, 1 ACTIVE, 2 LATCHED, 3 HELD. [2; 10 R358; 0] -/
  st : Nat := 0
  /-- Class in force. [2; 10 R355; DC 0] -/
  cls : Nat := 0
  /-- The condition of a condition source holds. [1; 10 R357; 0] -/
  cond : Bool := false
  /-- Underlying conditions of a grouped source (R357). [8; 10 R357; 0] -/
  under : BitVec 8 := 0
  /-- Expiry of the grace timer. [time; 10 R366; none] -/
  grace : Option Nat := none
  /-- Instant of the last record. [time; 10 R360; none] -/
  lastRec : Option Nat := none
  /-- Instant of the last raising by a detection. [time; 10 R384; none] -/
  raisedAt : Option Nat := none
  /-- Note raisings merged since the last record. [32; 10 R360; 0] -/
  merged : Nat := 0
  /-- Paths that the raising targets. [32; 10 R362; 0] -/
  targets : BitVec 32 := 0
  /-- Detail of the raising. [32; 10 R360; 0] -/
  detail : Nat := 0
deriving DecidableEq, Repr, Inhabited

/-- A fault record (R360). -/
structure FltRec where
  source : Nat
  cls : Byte
  reaction : Byte
  time : BitVec 64
  paths : BitVec 32
  detail : Word
  count : Word
  rseq : Word
deriving DecidableEq, Repr, Inhabited

/-- Ripcord. -/
structure FltSt where
  /-- The sources. [2176; 10 R352; IDLE] -/
  src : Tbl SrcSt := {}
  /-- Fault record queue, oldest first. [256 x 256; 10 R360; empty] -/
  recs : List FltRec := []
  /-- Record sequence of the last record. [32; 10 R360; 0] -/
  rseq : Nat := 0
  /-- FLT_STATUS.rec_lost. [16; 10 R360; 0] -/
  recLost : Nat := 0
  /-- FLT_STATUS.log_lost. [32; 11 R415; 0] -/
  logLost : Nat := 0
  /-- FLT_RESET_CAUSE. [96; 10 R373; 0] -/
  resetCause : BitVec 96 := 0
  /-- FAULT_N is driven low by the device. [1; 10 R368; 0] -/
  faultN : Bool := false
  /-- ALERT_N is driven low by the device. [1; 10 R369; 0] -/
  alertN : Bool := false
  /-- Domain resets that Ripcord asserts. [206; 10 R378; 0] -/
  domReset : BitVec 206 := 0
deriving DecidableEq, Repr, Inhabited

/-! ### Train -/

/-- What a listener keeps of a member (R348). -/
structure PeerSt where
  present : Bool := false
  heard : Bool := false
  heardPrev : Bool := false
  since : Nat := 0
  heartbeat : Byte := 0
  flags : Byte := 0
  fw : Word := 0
  gen : Word := 0
  restarts : Nat := 0
  digestDiff : Bool := false
  versionDiff : Bool := false
  indexDiff : Bool := false
  pathDiff : Bool := false
  pathSlot : Nat := 0
  absent : Bool := false
  everHeard : Bool := false
deriving DecidableEq, Repr, Inhabited

/-- The train unit. -/
structure TrnSt where
  /-- Instant of the last master reference, or of the round's start. [time; 09 R333; none] -/
  masterRef : Option Nat := none
  /-- A valid master slot was heard since the last reset. [1; 09 R340; 0] -/
  heardMaster : Bool := false
  /-- Round number of the master, or page of the round. [8; 09 R336; 0] -/
  round : Nat := 0
  digestBad : Bool := false
  digestUnconf : Bool := false
  fwDiffers : Bool := false
  fwCompat : Bool := false
  indexBad : Bool := false
  indexUnconf : Bool := false
  masterSilent : Bool := false
  masterNone : Bool := false
  coasting : Bool := false
  /-- TRN_STATUS.agree_count. [4; 09 R346; 0] -/
  agree : Nat := 0
  /-- A comparison has agreed since the last disagreement. [1; 09 R345; 0] -/
  agreeing : Bool := false
  /-- own_digest. [64; 09 R341; DC 0 until load] -/
  ownDigest : BitVec 64 := 0
  /-- master_digest. [64; 09 R341; DC 0] -/
  masterDigest : BitVec 64 := 0
  /-- Index of the master's last valid slot; none while its beat state is NONE. [48; 09 R348; none] -/
  masterIndex : Option Nat := none
  /-- Firmware version that the master last published. [32; 09 R342; DC 0] -/
  masterFw : Word := 0
  /-- slot_errors. [16; 09 R337; 0] -/
  slotErr : Nat := 0
  /-- The instant at which the present round started. [model instant; 09 R333; 0] -/
  roundAt : Nat := 0
  /-- Slots not valid in the present round. [8; 09 R349; 0] -/
  roundErr : Nat := 0
  /-- Heartbeat of the next slot. [8; 09 R335; 0] -/
  heartbeat : Byte := 0
  /-- Polarity of the last valid slot. [1; 09 R338; none] -/
  polarity : Option Bool := none
  /-- The members. [64; 09 R348; absent] -/
  peer : Tbl PeerSt := {}
  /-- Implied mode of each slot, on the master. [32 x 3; 09 R344; Moored] -/
  implied : Tbl Mode := {}
  /-- Consecutive differing summaries of member m and path p at key 32 m + p. [2; 09 R344; 0] -/
  pathCnt : Tbl Nat := {}
  /-- Consecutive rounds in which the own slot read back wrong. [2; 09 R349; 0] -/
  conflict : Nat := 0
  /-- The own slot was sent in this round. [1; 09 R349; 0] -/
  sent : Bool := false
  /-- In this round the own slot read back wrong, or a slot with the own TRAIN_ID arrived without being sent. [1; 09 R349; 0] -/
  foreign : Bool := false
  /-- Half-cells of the last slot sent. [400; 09 R334; none] -/
  lastSent : Option (BitVec 400) := none
  /-- The firmware version. [32; 09 R342; free value until load] -/
  fwVersion : Word := 0
deriving DecidableEq, Repr, Inhabited

/-! ### Stage sets -/

/-- A staged write (R401) with the origin that staged it. -/
structure StagedWr where
  addr : Word
  value : Word
  mask : Word
  origin : Origin
deriving DecidableEq, Repr, Inhabited

/-- A held write (R404): its cause, the path whose condition holds it, and the write. -/
structure HeldWr where
  cause : Nat
  path : Nat
  wr : StagedWr
  /-- Its condition has ended: the instant from which its entry may be tried, or tried again (R404). -/
  due : Option Nat := none
deriving DecidableEq, Repr, Inhabited

/-- A schedule action with its operands (R58). -/
inductive Act where
  | nop (param : Nat)
  | stageApply (set : Nat) (retain eccBad : Bool)
  | modeSet (p : Nat) (m : Mode)
  | captureOpen (k limit : Nat)
  | captureClose (k : Nat)
  | windowOpen (n c : Nat) (label : BitVec 16)
  | windowClose (n c : Nat)
  | spareSwap (ip inn out : Nat)
  | rekey (step old new : Nat)
  | freeze (on : Bool) (target : Nat)
  | logMark (v : Nat)
  | stimStart (p : Nat) (gen : Bool)
  | stimStop (p : Nat)
  | trigger (arm : Bool) (p : Nat) (dirs : Nat)
  | markSend (ip v : Nat)
deriving DecidableEq, Repr, Inhabited

/-- What has fired for a path and waits for a boundary of it (R62, R402): the writes of an apply, an action, or the switch of
the datapath to the mode of a MODE_SET within the Guard family (R177). -/
inductive PathAct where
  | writes (ws : List StagedWr)
  | act (a : Act) (origin : Origin) (late : Bool) (fired : Nat)
  | mode
deriving DecidableEq, Repr, Inhabited

/-- Stage sets and applies. -/
structure StgSt where
  /-- The eight sets. [8 x 4096 writes; 11 R401; empty] -/
  sets : Tbl (List StagedWr) := {}
  /-- Held writes in staged order. [R404; 11 R404; empty] -/
  held : List HeldWr := []
  /-- What waits for the boundaries of each path, in firing order. [R62, R402; 02 R62, 11 R402; empty] -/
  switch : Tbl (List PathAct) := {}
  /-- GLB_STAGE_STATUS.applying. [32; 11 R405; 0] -/
  applying : BitVec 32 := 0
  /-- GLB_STAGE_STATUS.result. [3; 11 R401; 0] -/
  result : Nat := 0
deriving DecidableEq, Repr, Inhabited

/-! ### Lanes, quads, dies -/

/-- The lane state reported by LANE_STATUS (R553). -/
inductive LaneState where
  | unassigned | run | doze | moored
deriving DecidableEq, Repr, Inhabited

/-- The anchor lock machine (R80). -/
inductive Anchor where
  | search | candidate | locked
deriving DecidableEq, Repr, Inhabited

/-- Receiver settings (R88): CTLE peaking in dB, the 24 FFE taps and the DFE tap h1. -/
structure EqSt where
  ctle : Nat := 0
  ffe : List Int := []
  dfe : Int := 0
deriving DecidableEq, Repr, Inhabited

/-- What a receiver reports for margining (R110): steps to each side in time and voltage, the largest offsets in 1/100 UI and in
mV, and that the sides and the sampler are independent and that it reports error counts. -/
structure MarginCaps where
  timingSteps : Nat := 32
  maxTiming : Nat := 50
  voltageSteps : Nat := 63
  maxVoltage : Nat
  leftRight : Bool := true
  upDown : Bool := true
  ownSampler : Bool := true
  errorCounts : Bool := true
deriving DecidableEq, Repr, Inhabited

/-- The answer to a margining command (R133). -/
inductive MarginAns where
  | capabilities (c : MarginCaps)
  | step (cmd : MarginCmd) (errors : Nat)
  | done (cmd : MarginCmd)
  | notSupported
deriving DecidableEq, Repr, Inhabited

/-- One lane front. -/
structure LaneSt where
  /-- Lane state. [2; 03 R103; unassigned] -/
  st : LaneState := .unassigned
  /-- Anchor state. [2; 03 R80; SEARCH] -/
  anchor : Anchor := .search
  /-- Symbol position of the last match. [64; 03 R80; DC 0] -/
  matchPos : Nat := 0
  /-- Count of the last match. [16; 03 R80; DC 0] -/
  count : BitVec 16 := 0
  /-- Consecutive misses. [2; 03 R80; 0] -/
  misses : Nat := 0
  /-- LANE_ANCHOR. [32; 16 R553; 0] -/
  anchorReg : Word := 0
  /-- The identity of the last match passed. [1; 03 R81; 0] -/
  identOk : Bool := false
  /-- LANE_STATUS.eligible. [1; 16 R553; 0] -/
  eligible : Bool := false
  /-- LANE_STATUS.rx_inverted. [1; 03 R92; 0] -/
  rxInv : Bool := false
  /-- The order correction of R94 was raised. [1; 03 R94; 0] -/
  orderDone : Bool := false
  /-- The port position that the identity gave the lane (R94). [5; 03 R94; none] -/
  pos : Option Nat := none
  /-- The lane leaves Moored (R105). [1; 03 R105; 0] -/
  exiting : Bool := false
  /-- LANE_STATUS.precode_rx. [1; 03 R73; 0] -/
  precRx : Bool := false
  /-- LANE_STATUS.precode_tx. [1; 03 R73; 0] -/
  precTx : Bool := false
  /-- LANE_STATUS.peer_lane_num. [8; 16 R553; 0xFF] -/
  peerLane : Byte := 0xFF
  /-- LANE_STATUS.fuse_unusable. [1; 12 R441; 0] -/
  fuseBad : Bool := false
  /-- Lasting conditions that cut the lane off, bits: 0 tx_open, 1 rx_los, 2 cdr_unlock, 3 dsp_error, 4 calibration,
  5 identity, 6 align_loss, 7 quad config. [8; 03 R102; 0] -/
  cut : BitVec 8 := 0
  /-- LANE_SENSE. [32; 16 R553; DC 0] -/
  sense : Word := 0
  /-- Transmitter at high impedance after a short. [1; 03 R97; 0] -/
  txHiZ : Bool := false
  /-- Transmitter in electrical idle with its common mode held. [1; 03 R85; 1] -/
  txIdle : Bool := true
  /-- Consecutive clean retests. [2; 03 R97; 0] -/
  clean : Nat := 0
  /-- Adaptation frozen. [1; 03 R90; 0] -/
  frozen : Bool := false
  /-- A freeze waits for Run. [1; 03 R91; 0] -/
  freezePend : Bool := false
  /-- Bounds already reported since lock: ctle_min, ctle_max, ffe_max, dfe_max, requests. [5; 03 R89, 04 R116; 0] -/
  bound : BitVec 5 := 0
  /-- CTLE, FFE and DFE settings in force. [5, 24 x 8, 8; 03 R88; DC 0] -/
  eq : EqSt := {}
  /-- Position of the FFE main cursor, taken at the start of adaptation of a bring-up. [4; 03 R88; 6] -/
  ffeMain : Nat := 6
  /-- Symbol position at which a loop last moved, and the latest symbol position that the loops reported. [2 x 64; 04 R145;
  0] -/
  eqMoved : Nat := 0
  eqSeen : Nat := 0
  /-- Coefficients stored at the last entry to Moored, with their rate; none means the seed values. [R105; 03 R105; none] -/
  stored : Option (Nat × EqSt) := none
  /-- Precoder memories of the transmitter and of the receiver. [2 x 2; 03 R73; 0] -/
  txMem : Nat := 0
  rxMem : Nat := 0
  /-- Transmit taps in force c(-3) to c(+2). [6 x 7; 03 R82; 0,0,-8,48,-8 by LANE_TXFIR reset] -/
  taps : List Int := [0, 0, -8, 48, -8, 0]
  /-- WSK_STATUS: operation in progress, points done, end. [2+9+2; 16 R553; 0] -/
  wskOp : Nat := 0
  wskDone : Nat := 0
  wskEnd : Nat := 0
  /-- WSK_RESULT: pseudo-errors and compared symbols of each point. [256 x 128; 16 R553; 0] -/
  wskRes : Tbl (Nat × Nat) := {}
  /-- The scan that was cut short and whose points done are not recorded yet. [2; 03 R109; 0] -/
  wskCut : Nat := 0
  /-- A margining command holds the sampler. [1; 03 R109; 0] -/
  margin : Bool := false
  /-- The answer to the last margining command. [R110, R133; 04 R133; none] -/
  marginAns : Option MarginAns := none
  /-- Pseudo-errors and compared symbols of the continuous monitor's last interval. [2 x 40; 04 R145; 0] -/
  mon : Nat × Nat := (0, 0)
  /-- RS symbols corrected in flits received in the present interval. [32; 03 R100; 0] -/
  rsCorr : Nat := 0
  /-- Lane flit index of the next flit to be received. [16 + 14; 06 R198; 0] -/
  rxIdx : BitVec 16 × BitVec 14 := (0, 0)
deriving DecidableEq, Repr, Inhabited

/-- The training state of one lane: negotiation (R141), coefficient handshake (R145), PCIe (R124). -/
structure LaneTr where
  /-- Consecutive valid CONF sets received. [4; 04 R141; 0] -/
  confRx : Nat := 0
  /-- Consecutive valid sets received. [4; 04 R140; 0] -/
  setRx : Nat := 0
  /-- The lane has negotiated. [1; 04 R141; 0] -/
  negotiated : Bool := false
  /-- Set type that the lane sends: 0 none, 1 ADV, 2 CONF, 3 HOLD. [2; 04 R140; 0] -/
  sends : Nat := 0
  /-- The valid set last received. [R140; 04 R141; none] -/
  peerSet : Option NegSet := none
  /-- Instant since which the lane sends CONF sets without a break. [time; 04 R141; none] -/
  confAt : Option Nat := none
  /-- Precoding supported by the partner. [1; 04 R140; 0] -/
  partnerPrec : Bool := false
  /-- Last request sequence applied. [4; 04 R145; none] -/
  reqSeq : Option Nat := none
  /-- The partner's taps c(-3) to c(+2) as its answers leave them. [6 x 7; 04 R116; none] -/
  reqTaps : List Int := []
  /-- The own request: req_seq, the preset asked for, the taps asked for, and that its answer is awaited. [4, 4, 6 x 7, 1; 04 R145; 0] -/
  outSeq : Nat := 0
  outPreset : Option Nat := none
  outTaps : List Int := []
  outWait : Bool := false
  /-- FS that a PCIe partner reported. [6; 04 R116; 0] -/
  peerFs : Nat := 0
  /-- The answer that a PCIe lane sends: coefficients in FS units, and Reject. [3 x 6, 1; 04 R117; 0] -/
  ansCoef : BitVec 6 × BitVec 6 × BitVec 6 := (0, 0, 0)
  ansReject : Bool := false
  /-- The rate in force on a PCIe lane, from its ordered sets; none means LANE_CFG.rate. [4; 03 R70; none] -/
  rate : Option Nat := none
  /-- The training-frame finder: its state, the position of the last frame. [2, 64; 04 R143; SEARCH]
  -/
  frm : Anchor := .search
  frmPos : Nat := 0
  /-- tap_status and status_seq that the lane returns. [12+4; 04 R144; 0] -/
  tapStatus : BitVec 12 := 0
  statusSeq : BitVec 4 := 0
  /-- Consecutive frames with rx_ready received. [5; 04 R145; 0] -/
  readyRx : Nat := 0
  /-- The own receiver has completed. [1; 04 R145; 0] -/
  readyTx : Bool := false
  /-- h1 settled above 0.25 of the main cursor. [1; 04 R127; 0] -/
  h1Large : Bool := false
  /-- Switched to the flit stream. [1; 04 R145; 0] -/
  switched : Bool := false
  /-- Equalisation phase of the pseudo-port. [2; 04 R124; none] -/
  eqPhase : Option Nat := none
  /-- The device's receiver on this lane has finished the present phase. [1; 04 R125; 0] -/
  eqDone : Bool := false
  /-- Preset in force at the transmitter. [4; 04 R124; DC 0] -/
  preset : Nat := 0
  /-- Receiver found on the lane's far end. [1; 04 R128; 0] -/
  detected : Bool := false
  /-- PRBS31 register of the flit test, newest bit first. [31; 04 R151; none] -/
  prbs : List Bool := []
  /-- The receiver termination of the lane is held open. [1; 04 R128, 05 R176; 0] -/
  opened : Bool := false
  /-- Lane number that the controller sends toward the DUT. [8; 04 R135; none] -/
  laneSent : Option Byte := none
deriving DecidableEq, Repr, Inhabited

/-- One quad: QUAD_STATUS (R554). -/
structure QuadSt where
  pll : Bool := false
  input : Nat := 0
  calFailed : Bool := false
  cfgEcc : Bool := false
  noClock : Bool := false
deriving DecidableEq, Repr, Inhabited

/-- One lane die: DIE_STATUS (R554). -/
structure DieSt where
  corrected : Nat := 0
  link : Nat := 0
deriving DecidableEq, Repr, Inhabited

/-! ### Qormos ports and links -/

/-- A flit that an end has framed or will frame. -/
structure TxFlit where
  typ : Nat
  cls : Nat := 0
  seq : Seq := 0
  flags : Byte := 0
  path : Nat := 0
  payload : List Byte := []
  interval : Nat := 0
  beat : BitVec 28 := 0
  sends : List (Nat × BitVec 16 × BitVec 14 × Nat) := []
  count : Nat := 0
  /-- The instant at which replay_ns of its last transmission ends, as it stood then (R206, R242). -/
  dueAt : Nat := 0
  sel : Bool := false
  limit : Bool := false
  due : Bool := false
  stamped : Bool := false
  poison : Bool := false
  /-- The Reel cell that holds it, in the path's D→I region (R211). -/
  cell : Nat := 0
deriving DecidableEq, Repr, Inhabited

/-- A flit as it last left a lane: header and payload, the levels sent, and those of the anchor word before it, if any. -/
structure LineFlit where
  header : BitVec 96
  payload : List Byte
  levels : List Nat := []
  anchor : List Nat := []
deriving DecidableEq, Repr, Inhabited

/-- An accepted I→D flit in its Reel cell (R211). -/
structure RxCell where
  seq : Seq
  typ : Nat
  cls : Nat
  interval : Nat
  payload : List Byte
  /-- Its header, its nominal arrival, the Reel cell of the path's I→D region that holds it, and the instant since which every
  earlier flit is resolved too. -/
  header : BitVec 96 := 0
  nominal : Option Nat := none
  cell : Nat := 0
  readyAt : Nat := 0
deriving DecidableEq, Repr, Inhabited

/-- A refused I→D flit whose REFUSE report is not yet covered (R208). -/
structure RefusePend where
  seq : Seq
  report : Option Seq
deriving DecidableEq, Repr, Inhabited

/-- A SPARE message that waits for its answer (R216). -/
structure SpareMsg where
  op : Nat
  out : Nat
  inn : Nat
  cause : Nat
  tx : Option FlitIndex
  lost : Option FlitIndex
  since : Nat
  /-- Positions on which it is still to be sent, the instant of its last repetition, and its time-out was raised. -/
  due : BitVec 18 := 0x3FFFF
  sentAt : Nat := 0
  late : Bool := false
  /-- Instant at which the message that this one answers was last repeated. -/
  repeated : Nat := 0
deriving DecidableEq, Repr, Inhabited

/-- The speed ladder of an I port (R148). -/
structure LadderSt where
  /-- QLE_LADDER_STATUS.step. [4; 16 R546; 0] -/
  step : Nat := 0
  /-- Rate code of R140. [2; 16 R546; 0] -/
  rate : Nat := 0
  /-- Eligible positions. [18; 16 R546; 0] -/
  eligible : BitVec 18 := 0
  /-- bad_sets. [32; 04 R140; 0] -/
  badSets : Nat := 0
  /-- Instant at which the step began. [time; 04 R148; DC 0] -/
  since : Nat := 0
  /-- The agreed ceiling. [2; 04 R141; DC 0] -/
  ceiling : Nat := 0
  /-- Lowest max_rate received on a negotiated lane. [2; 04 R141; DC 3] -/
  partnerMax : Nat := 3
  /-- The partner claims the lead; its version is 1. [2; 04 R141; 0] -/
  partnerLead : Bool := false
  partnerV1 : Bool := false
  /-- The partner holds the ladder since. [time; 04 R153; none] -/
  hold : Option Nat := none
  /-- Own and partner's precoding requests and acknowledgements. [4 x 18; 04 R147; none] -/
  precReq : Option (BitVec 18) := none
  precPeer : Option (BitVec 18) := none
  precAck : Option (BitVec 18) := none
  precAcked : Bool := false
  /-- Positions passed by the own receivers, and by the partner's. [2 x 18; 04 R151; none] -/
  testOwn : Option (BitVec 18) := none
  testPeer : Option (BitVec 18) := none
  /-- The lanes send the flit test. [1; 04 R151; 0] -/
  testing : Bool := false
  /-- The port has fallen back one rate. [1; 04 R149; 0] -/
  fellBack : Bool := false
  /-- Positions eligible at the rate below. [18; 04 R149; 0] -/
  below : BitVec 18 := 0
  /-- Ladder messages that the port sends until answered: byte 0, rate, mask. [R147; 04 R147; none] -/
  sends : List (Nat × Nat × BitVec 18) := []
  /-- Positions on which each of them is still to be sent, by byte 0, and the instant of the last repetition. [18 each, time;
  04 R147; none, DC 0] -/
  sendDue : Tbl (BitVec 18) := {}
  sentAt : Nat := 0
  /-- Rate of the stored ladder result. [2; 05 R177; none] -/
  stored : Option Nat := none
  /-- An idle of a rate change is in progress toward this rate. [2; 04 R148; none] -/
  changing : Option Nat := none
  /-- The ladder resumes from anchor lock after WAKE. [1; 05 R177; 0] -/
  resumed : Bool := false
deriving DecidableEq, Repr, Inhabited

/-- The Qormos link engine of an I-port slot with the sequence state of R199 and R200. -/
structure LinkSt where
  /-- next_seq. [24; 06 R199, R235; 1] -/
  next : Seq := 1
  /-- ack_seq. [24; 06 R200; 0] -/
  ack : Seq := 0
  /-- Newest acknowledgement received. [24; 06 R200; DC 0] -/
  peerAck : Seq := 0
  /-- Accepted flits above ack_seq with the instants at which gap_ns of their acceptance ends, as it stood then. [24 each; 06 R201,
  R204, R242; empty] -/
  got : List (Seq × Nat) := []
  /-- Missing numbers that a SEQ entry has named, with the instant of the next one. [24 each; 06 R204, R242; empty] -/
  nakAt : List (Seq × Nat) := []
  /-- Refused flits not yet resolved. [R208; 06 R208; empty] -/
  refuse : List RefusePend := []
  /-- Ranges of own flits that the partner refused. [R208; 06 R200; empty] -/
  peerRefused : List (Seq × Seq) := []
  /-- Unresolved transmitted flits, in sequence order: the D→I Reel cells. [227 per unit; 06 R211; empty] -/
  unres : List TxFlit := []
  /-- New sequenced flits waiting to be framed, in framing order of R196. [R196; 06 R196; empty] -/
  wait : List TxFlit := []
  /-- Accepted I→D flits not yet delivered, by rising sequence: the I→D Reel cells. [227 per unit; 06 R211; empty] -/
  cells : List RxCell := []
  /-- Sequence number up to which flits were delivered. [24; 06 R227; 0] -/
  delivered : Seq := 0
  /-- Intervals counted by I→D DATA flits taken since the tunnel start. [32; 06 R221; 0] -/
  rxCount : Nat := 0
  /-- NAK entries due. [32 x 64; 06 R203; empty] -/
  naks : List (BitVec 64) := []
  /-- An ACK flit is due, and the instant from which the next one may be. [1, time; 06 R201; 0] -/
  ackDue : Bool := false
  ackNext : Nat := 0
  /-- BEATECHO: an answer owed with this id, an own echo due, and the instant of the next own one. [32, 1, time; 06 R231, R242; none
  and 0] -/
  echoAns : Option Word := none
  echoDue : Bool := false
  echoNext : Nat := 0
  /-- Echo number of the last own BEATECHO, and id of the last received. [2 x 32; 06 R231; 0 and none] -/
  echoId : Word := 0
  echoRx : Word := 0xFFFFFFFF
  /-- Instants at which own echoes left, by id. [time; 06 R232; empty] -/
  echoAt : List (Word × Nat) := []
  /-- tunnel: 0 stopped, 1 running, 2 resuming. [2; 16 R546; 0] -/
  tunnel : Nat := 0
  /-- TUNNEL message that is repeated: op, flags, next_interval, hold_ns. [R235; 06 R235; none] -/
  tunMsg : Option (Nat × Nat × Nat × Nat) := none
  /-- Positions on which it is still to be sent, and the instant of its last repetition. [18, time; 06 R235; 0] -/
  tunDue : BitVec 18 := 0
  tunAt : Nat := 0
  /-- The answer to the partner's last TUNNEL message, positions on which it is still to be sent, and the 16 bytes of the messages
  acted on, by op. [16 bytes, 18, 4 x 16 bytes; 06 R195, R235; none] -/
  tunAns : Option (Nat × Nat × Nat × Nat) := none
  tunAnsDue : BitVec 18 := 0
  tunRx : Tbl (Option (List Byte)) := {}
  /-- The partner's RESUME, its RESUME_ACK and own RESUME_ACK have passed. [3; 06 R236; 0] -/
  resGot : Bool := false
  resAcked : Bool := false
  /-- No link state is retained: the sequence spaces are fresh. [1; 06 R235; 1] -/
  fresh : Bool := true
  /-- Instant of the last valid flit. [time; 06 R241; DC 0] -/
  heardAt : Nat := 0
  /-- A flit that waits found no free cell, which has raised link_error. [1; 06 R215; 0] -/
  noRoom : Bool := false
  /-- Silence of 10 µs has raised link_error. [1; 06 R241; 0] -/
  silent : Bool := false
deriving DecidableEq, Repr, Inhabited

/-- Counters of a link engine. -/
structure QleCnt where
  late : Nat := 0
  noCell : Nat := 0
  dup : Nat := 0
  malformed : Nat := 0
  lostCrc : Nat := 0
  lostRs : Nat := 0
  /-- A LOST entry named an index that carried nothing unresolved. [32; 06 R205; 0] -/
  nakIdle : Nat := 0
  peerHop : BitVec 2 := 0
  /-- Beat index and phase of the last flit header, rebuilt (R68). [48 + 12; 02 R68; 0] -/
  peerIndex : Nat := 0
  peerPhase : Nat := 0
  peerBeat : BitVec 64 := 0
  rttLast : Nat := 0
  rttMax : Nat := 0
deriving DecidableEq, Repr, Inhabited

/-- An I-port slot. -/
structure PortSt where
  lad : LadderSt := {}
  link : LinkSt := {}
  cnt : QleCnt := {}
  /-- BRD_IPORT_STATUS masks. [3 x 18; 16 R545; 0] -/
  active : BitVec 18 := 0
  pool : BitVec 18 := 0
  dropped : BitVec 18 := 0
  /-- Instant at which a forced swap last took each position into the active set. [18 x time; 05 R168; none] -/
  forced : Tbl (Option Nat) := {}
  /-- The link stands past DONE. [1; 05 R164; 0] -/
  up : Bool := false
  /-- SPARE messages that wait for their answers, oldest first. [R216; 06 R216; empty] -/
  spare : List SpareMsg := []
  /-- The last answer to the SPARE messages of each op and outgoing position. [R216; 06 R216; empty] -/
  spareAns : List SpareMsg := []
  /-- The 16 bytes of the SPARE message last acted on, by op x 32 + outgoing position. [16 bytes each; 06 R195; none] -/
  spareRx : Tbl (Option (List Byte)) := {}
  /-- The flit each position last sent. [18 x 288 bytes; 06 R196; none] -/
  line : Tbl (Option LineFlit) := {}
  /-- Lane flit index of the next boundary of each position. [18 x 30; 06 R198; 0] -/
  txIdx : Tbl (BitVec 16 × BitVec 14) := {}
deriving DecidableEq, Repr, Inhabited

/-! ### Paths -/

/-- The phases of R176. -/
inductive Phase where
  | steady | drain | dark | wake | ladder | train
deriving DecidableEq, Repr, Inhabited

/-- What holds a path in its safe state (R364). -/
inductive Hold where
  | source (n : Nat) | train | domain (d : Nat) | fatal | reset
deriving DecidableEq, Repr, Inhabited

/-- A transition in progress: a mode change or a retrain change. -/
structure Trans where
  retrain : Bool
  iSide : Bool
  old : Mode
  darkAt : Option Nat
  fireAt : Nat
deriving DecidableEq, Repr, Inhabited

/-- A pattern generator of a verdict pair (R305-R307): one register per lane, and the address-and-data step. -/
structure Gen where
  /-- Newest bit first. [64 per lane; 08 R306; empty until a start] -/
  regs : List (List Bool) := []
  /-- Address a_i. [64; 08 R307; 0] -/
  addr : Nat := 0
  /-- Step i, and the word of a step that is still to be emitted. [64; 08 R307; 0] -/
  step : Nat := 0
deriving DecidableEq, Repr, Inhabited

/-- A path slot. -/
structure PathSt where
  /-- PATH_MODE.mode. [3; 05 R158; 0] -/
  mode : Mode := .moored
  /-- The mode that the datapath still runs until its boundary, where it differs from PATH_MODE.mode. [3; 05 R177; none] -/
  runs : Option Mode := none
  /-- PATH_STATUS.phase. [3; 05 R176; 0] -/
  phase : Phase := .steady
  /-- PATH_STATUS safe state. [1; 10 R363; 0] -/
  safe : Bool := false
  /-- Holding causes. [R364; 10 R364; none] -/
  holds : List Hold := []
  /-- The transition in progress. [R177; 05 R177; none] -/
  trans : Option Trans := none
  /-- A bring-up waits for the safe state to end. [1; 05 R183; 0] -/
  upPend : Bool := false
  /-- A mode change that the safe state holds: the mode it leaves. [R30; 03 R30; none] -/
  pendMode : Option Mode := none
  /-- A retrain change that the safe state holds: I-side or not. [R406; 11 R406; none] -/
  pendRetrain : Option Bool := none
  /-- retrain_pending. [1; 11 R408; 0] -/
  retrain : Bool := false
  /-- The ladder was stopped by the safe state. [1; 04 R153; 0] -/
  ladStop : Bool := false
  /-- Side states of PATH_TRAIN_STATUS. [2 x 3; 16 R544; 0] -/
  iTrain : Nat := 0
  dTrain : Nat := 0
  /-- partner_kind_i and partner_kind_d. [2 x 3; 04 R142; 0] -/
  kindI : Nat := 0
  kindD : Nat := 0
  /-- miscabled was raised in this bring-up on the I and D side. [2; 04 R142; 0] -/
  miscI : Bool := false
  miscD : Bool := false
  /-- lane_order and retimer_pos. [2 + 2; 16 R543; 0] -/
  laneOrder : Nat := 0
  retimer : Nat := 0
  /-- D lanes in electrical idle, and received electrical idle, per direction. [2 x 16; 06 R224; 0] -/
  eiToD : BitVec 16 := 0
  eiToI : BitVec 16 := 0
  /-- Stimulus: running, from the generator. [2; 05 R58; 0] -/
  stim : Bool := false
  stimGen : Bool := false
  /-- Stimulus position, in intervals since STIM_START. [64; 07 R258; 0] -/
  stimPos : Nat := 0
  /-- The stimulus generator; the bytes of the replay stream not yet transmitted. [08 R305, 03 R23; 0] -/
  stimSrc : Gen := {}
  stimBuf : List Byte := []
  /-- D lanes: 0 idle, 1 carrying the path's traffic, 2 fill pattern with fixed pre-emphasis. [2; 03 R87; 0] -/
  dOut : Nat := 0
  /-- Nominal arrival A(k) of interval tlK, and tlK; the timeline exists. [time, 32; 06 R225; none] -/
  timeline : Option (Nat × Nat) := none
  /-- The interval whose DATA flit anchors the timeline, and the earliest instant of its nominal arrival. [32, time; 06 R225,
  R237; 0] -/
  anchor : Nat × Nat := (0, 0)
  /-- Rate of the D lanes given by a RATE event, by its code; none means LANE_CFG.rate. [4; 06 R223; none] -/
  dRate : Option Nat := none
  /-- The last interval that left on the D lanes: its number and its 256 bytes. [32, 2048; 06 R227; none] -/
  played : Option (Nat × List Byte) := none
  /-- The levels that left on each D lane with it. [16 lanes; 03 R72, R73, R93; empty] -/
  dLevels : List (List Nat) := []
  /-- The line events of that interval, each with the instant of its effect at the D balls. [R223, R227; 06 R227; empty] -/
  playedEv : List (List Byte × Nat) := []
  /-- Arrival of the first flit lost while no timeline runs. [time; 06 R225; none] -/
  firstLost : Option Nat := none
  /-- Next I→D interval to play. [32; 06 R227; 0] -/
  playNext : Nat := 0
  /-- D→I packing: interval, bits sent of it, and the unsent bits per lane. [32; 06 R222; 0] -/
  packK : Nat := 0
  packOff : Nat := 0
  packBits : List (List Bool) := []
  /-- The unsent bits' arrivals: how many of each lane, and when, oldest first. [time; 06 R222; empty] -/
  packArr : List (Nat × Nat) := []
  /-- Run of D→I intervals not carried. [2 x 32; 06 R215; none] -/
  lostRun : Option (Nat × Nat) := none
  /-- D segment ready for Ethernet (R139). [1; 04 R139; 0] -/
  segReady : Bool := false
  /-- The TS1 or TS2 set last received and last forwarded, by direction (1 = D→I) x 16 + lane. [R121; 04 R121; none] -/
  tsIn : Tbl (Option TsSet) := {}
  tsOut : Tbl (Option TsSet) := {}
  /-- The virtual pseudo-port's answer to the last margining command. [R133; 04 R133; none] -/
  virtMargin : Option MarginAns := none
  /-- Alternate-protocol fields of the last modified set of each direction. [2 x 56; 04 R136; none] -/
  altProto : Option (BitVec 56) × Option (BitVec 56) := (none, none)
  /-- The rate offered in the rate change in progress. [3; 04 R119; none] -/
  offered : Option Nat := none
  /-- The auto-negotiation pages last regenerated toward the DUT and toward the instrument on port position 0. [2 x 48; 04 R137;
  none] -/
  pageToD : Option (BitVec 48) := none
  pageToI : Option (BitVec 48) := none
  /-- SKP units added or removed, signed, and the bits of each lane of the ordered set last sent on. [32, lanes; 04 R130; 0, empty] -/
  skp : Int := 0
  skpOut : List (List Bool) := []
  /-- SPL_PATH_STATUS cause bits. [4; 16 R549; 0] -/
  splCause : BitVec 4 := 0
  /-- Trigger hits of the four header-match rules. [4 x 32; 07 R270; 0] -/
  hits : List Nat := [0, 0, 0, 0]
  /-- D→I capture: interval in progress and its bits per lane. [32, 2048; 07 R258; 0] -/
  capK : Nat := 0
  capBits : List (List Bool) := []
  /-- The unsent bits, and the bits of the capture interval in progress, hold poisoned data. [2; 10 R365; 0] -/
  packPoison : Bool := false
  capPoison : Bool := false
deriving DecidableEq, Repr, Inhabited

/-- A record of a stream (R247) as the Spool holds it. -/
structure Rec where
  kind : Nat
  seq : Nat
  time : BitVec 64
  payload : List Byte
  flags : Byte := 0
  gap : Nat := 0
  first : Nat := 0
  offset : Nat := 0
  aux : Nat := 0
  laneMask : BitVec 16 := 0
  poison : Bool := false
  /-- The record is committed (R268). -/
  com : Bool := true
  /-- The path, direction and rate of its header (R247), and the instants of its first payload byte and of its seal (R262). -/
  place : Nat × Nat × Nat := (0, 0, 0)
  begun : Nat := 0
  sealedAt : Nat := 0
  /-- The window's row that holds the record, counted from 0 without end, and the instant of its acceptance (R253, R263). -/
  row : Nat := 0
  accAt : Nat := 0
deriving DecidableEq, Repr, Inhabited

/-! ### Verdict pairs -/

/-- Results of one lane in one window (R318). -/
structure LaneRes where
  err : Nat := 0
  cmp : Nat := 0
  /-- First fail: beat time, index, and the aligned expected, received and mask bits. -/
  ff : Option (BitVec 64 × BitVec 64 × BitVec 64 × BitVec 64 × BitVec 64) := none
  hist : Tbl Nat := {}
  histSat : Bool := false
  acc0 : Nat := 0
  acc1 : Nat := 0
  summed : Nat := 0
  unsummed : Nat := 0
  sat : Bool := false
deriving DecidableEq, Repr, Inhabited

/-- The content of a window: a running context or a result bank. -/
structure WinSt where
  label : BitVec 16 := 0
  openT : BitVec 64 := 0
  closeT : BitVec 64 := 0
  cause : Nat := 0
  causes : BitVec 16 := 0
  lane : Tbl LaneRes := {}
  fec : Nat := 0
  crc : Nat := 0
  ffLane : Option Nat := none
  verdict : Nat := 0
  /-- fail_limit, fec_limit and crc_limit at the close. [48, 32, 32; 08 R314, R328; 0] -/
  limits : Nat × Nat × Nat := (0, 0, 0)
deriving DecidableEq, Repr, Inhabited

/-- A WINDOW_OPEN or WINDOW_CLOSE that has fired and waits for its effect (R62, R317). -/
structure WinAct where
  /-- WINDOW_OPEN, otherwise WINDOW_CLOSE. [1; 02 R58; -] -/
  opens : Bool
  /-- Window label of an open. [16; 02 R58; -] -/
  label : BitVec 16
  /-- Origin of the load. [R412; 11 R412; -] -/
  origin : Origin
  /-- Fire instant. [time; 02 R62; -] -/
  fired : Nat
  /-- Late flag. [1; 02 R63; -] -/
  late : Bool
deriving DecidableEq, Repr, Inhabited

/-- A context (R316) with its two result banks (R317). -/
structure CtxSt where
  /-- VRD_CTX_STATUS.state. [1; 08 R316; 0] -/
  isOpen : Bool := false
  /-- The running window. [08 R318; cleared] -/
  win : WinSt := {}
  /-- VRD_CTX_STATUS.ignored_opens. [16; 16 R547; 0] -/
  ignored : Nat := 0
  /-- Line bits of each lane seen since the open. [64; 08 R323; 0] -/
  seen : Nat := 0
  /-- Units since the open. [32; 08 R319; 0] -/
  units : Nat := 0
  /-- First block and bits of the fail bitmap record in progress, and the admitted record. [R323;
  08 R323; empty] -/
  mapFirst : Nat := 0
  mapBits : List (BitVec 16) := []
  mapRec : Option Rec := none
  /-- FORMING per bank. [2; 16 R547; 0] -/
  forming : BitVec 2 := 0
  /-- Close instants of the banks. [2 x time; 08 R317; DC 0] -/
  closedAt : Nat × Nat := (0, 0)
  /-- The result banks. [R318; 08 R317; DC cleared] -/
  bank0 : WinSt := {}
  bank1 : WinSt := {}
  /-- Newest formed bank. [1; 08 R317; none] -/
  newest : Option Nat := none
  /-- Bank that the next close uses. [1; 08 R317; 0] -/
  nextBank : Nat := 0
  /-- A close that waits for a bank: its fire instant and late flag. [R317; 08 R317; none] -/
  waiting : Option (Nat × Bool) := none
  /-- Window actions that fired behind a waiting close and take effect after it, in firing order. [R62; 02 R62; empty] -/
  behind : List WinAct := []
deriving DecidableEq, Repr, Inhabited

/-- Self-synchronisation of one lane (R306): 0 loading, 1 checking, 2 locked, 3 failed. -/
structure SyncSt where
  phase : Nat := 0
  tries : Nat := 0
  bits : Nat := 0
  errs : Nat := 0
  idx : Nat := 0
  reg : List Bool := []
deriving DecidableEq, Repr, Inhabited

/-- A verdict pair. -/
structure PairSt where
  ctx : Tbl CtxSt := {}
  /-- The source runs. [1; 08 R309; 0] -/
  run : Bool := false
  /-- The source stopped comparing until the next source start. [1; 08 R324; 0] -/
  starved : Bool := false
  /-- Received bits per lane since the source start. [64; 08 R309; 0] -/
  rxBits : Nat := 0
  /-- VRD_STATUS.delta in force; none while searching. [18; 08 R310; none] -/
  delta : Option Nat := none
  /-- Expected and mask bytes read and not yet used, and the interval at which they begin. [R272; 08 R304; empty] -/
  expBuf : List Byte := []
  mskBuf : List Byte := []
  expBase : Nat := 0
  /-- The checker's generator. [R305; 08 R305; 0] -/
  gen : Gen := {}
  /-- Received bits of sync_lane from search_max on. [64; 08 R310; empty] -/
  hold : List Bool := []
  /-- Self-synchronisation per lane. [16 lanes; 08 R306; loading] -/
  sync : Tbl SyncSt := {}
  /-- Expected, received and mask bits of the aligned 64 bits in progress, per lane. [3 x 64; 08 R319; 0] -/
  blk : Tbl (Nat × Nat × Nat) := {}
  /-- VRD_STATUS.sat_contexts. [4; 16 R547; 0] -/
  satCtx : BitVec 4 := 0
deriving DecidableEq, Repr, Inhabited

/-! ### Spool and store -/

/-- A stream. -/
structure StrmSt where
  isOpen : Bool := false
  armed : Bool := false
  /-- Record limit left, 0 = none. [32; 07 R264; 0] -/
  limit : Nat := 0
  /-- post_records left after a trigger; none = no such limit. [32; 07 R265; none] -/
  post : Option Nat := none
  /-- Next sequence number. [64; 07 R246; 1] -/
  next : Nat := 1
  /-- The record being filled, and the EVENT record being filled beside it. [2 x 4096 bytes; 07 R259, R262; none] -/
  cur : Option Rec := none
  evRec : Option Rec := none
  /-- Events left of the span of a declined EVENT record. [8; 07 R260; 0] -/
  evSkip : Nat := 0
  /-- Bytes left of the span of a declined record. [12; 07 R260; 0] -/
  skip : Nat := 0
  /-- FAILMAP records in progress in the contexts. [3; 08 R323; 0] -/
  mapping : Nat := 0
  /-- Declined since the stream opened. [64; 07 R248; 0] -/
  gapOpen : Nat := 0
  /-- Instant of the last CAPTURE_CLOSE. [time; 07 R297; none] -/
  closedAt : Option Nat := none
  /-- Records of `written` that the commit in progress covers. [R263; 07 R263; 0] -/
  inCommit : Nat := 0
  /-- Records of the store row being written, 0 for none, and whether it is completed with PAD. [R283; 07 R283; 0] -/
  draining : Nat := 0
  drainPad : Bool := false
  /-- Drives whose write of that row has not completed, and the instant of the writes. [16, time; 07 R283, R285; 0] -/
  drainOn : BitVec 16 := 0
  drainAt : Nat := 0
  /-- Records of the next store row write that the drain slots have read, and that flush_us has passed. [R256, R283; 07 R256, R283;
  0] -/
  drainGot : Nat := 0
  flushDue : Bool := false
  /-- Records that the store holds as LOST. [64 each; 07 R283; empty] -/
  lostRecs : List Nat := []
  /-- The stream closed: its last store row is completed with PAD at once. [1; 07 R283; 0] -/
  padDue : Bool := false
  /-- Sequence numbers in the read-ahead, in reading order. [R272; 07 R272; empty] -/
  ahead : List Nat := []
  /-- Chunk of the upload's present record. [5; 07 R275; 0] -/
  upChunk : Nat := 0
  /-- Records sealed in staging, oldest first; uncommitted records of an armed stream. [R262; 07 R261; empty] -/
  staged : List Rec := []
  uncommitted : List Rec := []
  /-- Records written to HBM, not yet accepted. [R263; 07 R263; empty] -/
  written : List Rec := []
  /-- Records in the window, accepted and not freed. [window; 07 R253; empty] -/
  window : List Rec := []
  /-- Highest accepted, durable and released. [3 x 64; 07 R276; 0] -/
  accepted : Nat := 0
  durable : Nat := 0
  released : Nat := 0
  /-- Highest accepted in the snapshot under way and in the newest durable one. [2 x 64; 07 R278; 0] -/
  snapNew : Nat := 0
  snapAcc : Nat := 0
  /-- Store index after the durable record; released store position; store indices of the durable records that are not
  released, by sequence number. [64 each; 07 R276, R284; 0] -/
  storeIdx : Nat := 0
  storeRel : Nat := 0
  stored : List (Nat × Nat) := []
  /-- Gap counter, gap total, declines by cause (staging, window, key), load errors. [32 each; 07 R260; 0] -/
  gap : Nat := 0
  gapTotal : Nat := 0
  decStaging : Nat := 0
  decWindow : Nat := 0
  decKey : Nat := 0
  loadErr : Nat := 0
  /-- preload_done. [1; 07 R273; 0] -/
  preDone : Bool := false
  /-- Flags of the next admitted record: resumed, trigger. [8; 07 R247; 0] -/
  nextFlags : Byte := 0
  /-- Trigger flag given once per opening. [1; 07 R267; 0] -/
  trigged : Bool := false
  /-- Key slot bound to the window and key_in_force; none = unavailable. [4 + 8; 13 R455; none] -/
  slot : Option Nat := none
  keyIdx : Nat := 0
  /-- First row of the window, a free value; rows written to it so far. [23; 07 R253; DC 0, 0] -/
  baseRow : Nat := 0
  rowNext : Nat := 0
  /-- Read pointer of an expected, mask or replay stream; it is being read. [64; 07 R272; 0] -/
  readSeq : Nat := 0
  reading : Bool := false
  /-- Chunks of the record being assembled from EXPECT flits. [18 x 240 bytes; 07 R274; none] -/
  chunks : Tbl (List Byte) := {}
  chunkSeq : Nat := 0
  /-- Positions freed since the last unasked STATUS. [32; 07 R275; 0] -/
  freed : Nat := 0
  /-- Upload in progress: next and last sequence number. [2 x 64; 07 R275; none] -/
  upload : Option (Nat × Nat) := none
  /-- Highest sequence number read for the upload. [64; 07 R275; 0] -/
  upRead : Nat := 0
  /-- The extent is full. [1; 07 R284; 0] -/
  full : Bool := false
deriving DecidableEq, Repr, Inhabited

/-- A journal copy (R277): its commit number, whether its CRC passes, its 64-byte header and its entries by stream. -/
structure JrnCopy where
  no : Nat := 0
  intact : Bool := false
  head : List Byte := []
  ents : Tbl (List Byte) := {}
deriving DecidableEq, Repr, Inhabited

/-- One HBM stack. -/
structure HbmSt where
  /-- Interface: 0 untrained, 1 training, 2 ready, 3 failed. [2; 16 R550; 0] -/
  link : Nat := 0
  selfRefresh : Bool := false
  celsius : Nat := 0
  /-- Physical channel of each logical channel, where it differs from the power-on map. [30 x 5; 07 R251; identity] -/
  map : Tbl Nat := {}
  /-- Unmapped logical channels. [30; 07 R290; 0] -/
  unmapped : BitVec 30 := 0
  /-- Spares used, of physical 31 and 30. [2; 16 R550; 0] -/
  used : BitVec 2 := 0
  /-- Logical channel that rebuilds and the unit address of the boundary. [5 + 19; 07 R289; none] -/
  rebuild : Option (Nat × Nat) := none
  /-- Logical channels that wait for the rebuild in progress. [list; 07 R289; empty] -/
  rebuildNext : List Nat := []
  /-- Corrected words and uncorrectable reads per channel within the present 1 s. [32; 07 R294; 0] -/
  corrected : Nat := 0
  uncorr : Tbl Nat := {}
  /-- Corrected words by address: row x 128 + word. [Nat; 07 R288; 0] -/
  corrAt : Tbl Nat := {}
  /-- All channels retired by a failed self-refresh. [1; 07 R292; 0] -/
  lostAll : Bool := false
deriving DecidableEq, Repr, Inhabited

/-- Spool-wide state: journal, snapshots, HBM content. -/
structure SplSt where
  strm : Tbl StrmSt := {}
  hbm : Tbl HbmSt := {}
  /-- HBM content seen by masters: bytes by Spool address without the slot field. [8 each; 13 R450; DC 0] -/
  mem : Tbl Byte := {}
  /-- Key slot under which each 32-byte word of that memory was written, by its address. [4 each; 13 R450; DC 0] -/
  memSlot : Tbl Nat := {}
  /-- Poisoned 32-byte words of that memory. [1 each; 10 R365; 0] -/
  memPoison : Tbl Bool := {}
  /-- Commit number of the last journal commit; one is in progress; when the next one is due. [64 + 1, time; 07 R277; 0] -/
  commitNo : Nat := 0
  committing : Bool := false
  commitDue : Nat := 0
  /-- The journal on die: the entries of the last commit, and its header. [1024 x 32 bytes, 64 bytes; 07 R276, R277; DC empty] -/
  jrn : Tbl (List Byte) := {}
  jrnHead : List Byte := []
  /-- The journal's copies in HBM: A in H0, B in H2. [2 x 32 KiB; 07 R254, R277; DC empty] -/
  copyA : JrnCopy := {}
  copyB : JrnCopy := {}
  /-- Snapshot number of the last snapshot, a snapshot under way with its JOURNAL records, the instants of its start and of the last
  durable one. [32; 07 R278; 0] -/
  snapNo : Nat := 0
  snapping : Bool := false
  snapRecs : List Rec := []
  /-- Drives whose writes of the snapshot have not completed. [16; 07 R278; 0] -/
  snapOn : BitVec 16 := 0
  snapFrom : Nat := 0
  snapAt : Nat := 0
  /-- Reserved marks carried by the snapshot under way, by key index. [32 each; 13 R466; empty] -/
  snapMarks : List (Nat × Nat) := []
  /-- Row of the scrub, and the instant at which its pass began. [23, time; 07 R291; 0] -/
  scrub : Nat := 0
  scrubAt : Nat := 0
  /-- SPL_CMD_STATUS. [32; 16 R549; 0] -/
  cmdBusy : Bool := false
  cmdResult : Nat := 0
  /-- Preload in progress: stream, next sequence number, records left. [R273; 07 R273; none] -/
  preload : Option (Nat × Nat × Nat) := none
  /-- Records that the preload has asked the drives for, and since when the first of them is awaited. [Nat, time; 07 R285, R287; 0] -/
  preAsked : Nat := 0
  preAt : Nat := 0
  /-- The present service frame, the slots that have acted in it, and extra unit reads of degraded reads that wait for the rebuild
  slots. [Nat, 256, Nat; 07 R255, R289; DC 0, 0, 0] -/
  frame : Nat := 0
  frameUsed : BitVec 256 := 0
  assist : Nat := 0
  /-- The Spool has scanned or resumed. [1; 07 R279; 0] -/
  ready : Bool := false
deriving DecidableEq, Repr, Inhabited

/-- A drive: STO_DRIVE_STATUS (R551). -/
structure DriveSt where
  /-- 0 absent, 1 live, 2 missing, 3 rebuilding, 4 not usable. [3; 16 R551; 0] -/
  st : Nat := 0
  port : Nat := 0
  capacity : Nat := 0
  boundary : Nat := 0
deriving DecidableEq, Repr, Inhabited

/-- The store. -/
structure StoSt where
  drive : Tbl DriveSt := {}
  /-- Drives of the group, and rows per drive. [5 + 64; 07 R282; 0] -/
  group : Nat := 0
  rows : Nat := 0
  /-- SP0 and SP1 link up. [2; 16 R551; 0] -/
  up : BitVec 2 := 0
  /-- The store host has stopped (Fatal). [1; 10 R371; 0] -/
  stopped : Bool := false
  /-- The store rows of the last write: row, and the blocks of the group's members in order. [34, 16 x 4096 bytes; 07 R282; empty] -/
  rowsOut : List (Nat × List (List Byte)) := []
  /-- Turn of the round robin of the drains, and of the preload reads, of 256. [2 x 8; 07 R287; DC 0] -/
  turn : Nat := 0
  turnRead : Nat := 0
  /-- store_lost was reported. [1; 07 R286; 0] -/
  lost : Bool := false
deriving DecidableEq, Repr, Inhabited

/-! ### Envelope -/

/-- A key record of the key store (R458). -/
structure KeySt where
  loaded : Bool := false
  kind : Nat := 0
  keyId : Word := 0
  record : List Byte := []
  slot : Option Nat := none
  counter : Nat := 0
  mark : Nat := 0
  sealRefused : Bool := false
  bad : Bool := false
deriving DecidableEq, Repr, Inhabited

/-- Envelope. -/
structure EnvSt where
  /-- The key store. [255 records; 13 R458; empty] -/
  key : Tbl KeySt := {}
  /-- Key index bound to each slot. [16; 13 R454; none] -/
  slot : Tbl (Option Nat) := {}
  /-- Slots with an uncorrectable error. [16; 13 R475; 0] -/
  slotBad : BitVec 16 := 0
  /-- ENV_KEY_STATUS. [32; 16 R540; 0] -/
  busy : Bool := false
  result : Nat := 0
  /-- ENV_WRAP_READ0-39. [160 bytes; 16 R540; 0] -/
  wrapped : List Byte := []
  /-- ENV_REKEY_STATUS: state, result, old, new, boundary, rows_total, rows_done. [128; 16 R540; 0] -/
  rkState : Nat := 0
  /-- A device reset paused the running rekey. [1; 13 R470; 0] -/
  rkHeld : Bool := false
  rkResult : Nat := 0
  rkOld : Nat := 0
  rkNew : Nat := 0
  rkBoundary : Nat := 0
  rkTotal : Nat := 0
  rkDone : Nat := 0
  /-- The rows of the range, ascending. [R469; 13 R469; empty] -/
  rkRows : List (Nat × Nat) := []
  /-- Rows that the engine re-encrypted in the running frame, and rows whose operation it repeats because a path wrote them in that
  frame. [R469; 13 R476; empty] -/
  rkFrame : List Nat := []
  rkAgain : List Nat := []
  /-- The core that runs the automatic rekey in progress. [2; 13 R467; none] -/
  auto : Option (Fin 4) := none
  /-- ENV_MEM_STATUS: busy, poisoned, refused. [3; 16 R540; 0] -/
  memPoison : Bool := false
  memRefused : Bool := false
  /-- The slots are cleared after Fatal or at a reset entry. [1; 13 R461; 0] -/
  cleared : Bool := false
deriving DecidableEq, Repr, Inhabited

/-! ### Gondola -/

/-- A Gondola core as the outside sees it. -/
structure CoreSt where
  halted : Bool := false
  /-- Halt cause of R513 and unit of a breakpoint halt. [3 + 6; 15 R513; 0] -/
  cause : Nat := 0
  unit : Nat := 0
  waiting : Bool := false
  /-- Pending events. [R485; 14 R485; empty] -/
  events : List Nat := []
  /-- State words of the halted core that were written while it is halted. [256 x 64; 15 R512; none] -/
  regs : Tbl (Option (BitVec 64)) := {}
  resets : Nat := 0
  /-- Count of runs of the core: its state words are free values of this count until written. [Nat; model; 0] -/
  epoch : Nat := 0
  /-- Instant since which the watchdog runs; of a halted core, the time that it has run. [time; 14 R483, 15 R519; 0] -/
  wdt : Nat := 0
deriving DecidableEq, Repr, Inhabited

/-- A hardware lock (R487). -/
structure LockSt where
  holder : Option Origin := none
  since : Nat := 0
  /-- Origin whose next access reads revoked. [R487; 14 R487; none] -/
  revoked : Option Origin := none
deriving DecidableEq, Repr, Inhabited

/-- A mailbox: its queues (R494). -/
structure MbSt where
  inQ : List MbMsg := []
  outQ : List MbMsg := []
deriving DecidableEq, Repr, Inhabited

/-- A patch unit (R502). -/
structure UnitSt where
  enable : Bool := false
  brk : Bool := false
  mask : BitVec 4 := 0
  all : Bool := false
  flash : BitVec 25 := 0
deriving DecidableEq, Repr, Inhabited

/-- An image update (R398). -/
structure UpdSt where
  running : Bool := false
  chip : Nat := 0
  /-- 0 header, 1 sections. [R398; 11 R398; 0] -/
  stage : Nat := 0
  next : Nat := 0
  total : Nat := 0
  generation : Word := 0
  bytes : List Byte := []
  lastData : Nat := 0
  /-- When the update started. [64; 17 R562; 0] -/
  since : Nat := 0
  result : Nat := 15
  origin : Origin := .hardware
deriving DecidableEq, Repr, Inhabited

/-- A directory entry of an image header (R388). -/
structure DirEntry where
  type   : Nat
  offset : Nat
  length : Nat
  crc    : Word
  sha    : BitVec 384
deriving DecidableEq, Repr, Inhabited

/-- The image as loaded, GLB_IMAGE_STATUS. -/
structure ImgSt where
  genA : Word := 0
  genB : Word := 0
  gRun : Word := 0
  validA : Bool := false
  validB : Bool := false
  secChip : BitVec 7 := 0
  noImage : Bool := false
  /-- An image load took place since power-on. [1; 11 R396; 0] -/
  booted : Bool := false
  refDir : List DirEntry := []
  /-- Flash map of the firmware BLOBs: load address, flash address, length. [R502; 14 R502; empty] -/
  flash : List (Nat × Nat × Nat) := []
  /-- BLOB items of the lanes section: lane DSP microcode and seed coefficients. [bytes; 11 R389; empty] -/
  dsp : List (Word × List Byte) := []
deriving DecidableEq, Repr, Inhabited

/-- The management bus target. -/
structure MgmtSt where
  /-- Register address of ADDR, and RLEN. [32 + 8; 14 R491; DC 0 and 32] -/
  addr : Word := 0
  rlen : Nat := 32
  /-- The read-ahead; none stands for a lock, which is read when it is sent. [4 x 32; 14 R492; empty] -/
  ahead : List (Option Word) := []
  dynAddr : BitVec 7 := 0
  ibi : Bool := false
  busErr : Nat := 0
  /-- What the last read returned. [bytes; 14 R491; empty] -/
  answer : List Byte := []
  /-- The last transfer was acknowledged. [1; 14 R489; 0] -/
  acked : Bool := false
  /-- The in-band interrupt that waits, by its data byte. [8; 14 R500; none] -/
  ibiPend : Option Byte := none
  /-- A transaction is in progress. [1; 12 R427; 0] -/
  busy : Bool := false
  /-- The lines are released after a stuck line. [1; 14 R493; 0] -/
  stuck : Bool := false
deriving DecidableEq, Repr, Inhabited

/-- Gondola. -/
structure GonSt where
  core : Tbl CoreSt := {}
  lock : Tbl LockSt := {}
  mb : Tbl MbSt := {}
  unit : Tbl UnitSt := {}
  /-- GON_STATUS.fw_ready. [1; 14 R501; 0] -/
  fwReady : Bool := false
  /-- GON_ECC_STATUS. [64; 16 R541; 0] -/
  eccAddr : Word := 0
  eccCount : Nat := 0
  eccMem : Nat := 0
  /-- GON_MB_STATUS: dropped and post_result. [16 + 2; 16 R541; 0] -/
  dropped : Nat := 0
  postResult : Nat := 0
  /-- Code RAM, data RAM and patch RAM. [8 MiB, 4 MiB, 2 KiB; 14 R480, R502; DC 0] -/
  code : Tbl Byte := {}
  data : Tbl Byte := {}
  patch : Tbl Byte := {}
  /-- Poisoned 32-byte words of code and data RAM. [1 each; 14 R480; 0] -/
  codePoison : Tbl Bool := {}
  dataPoison : Tbl Bool := {}
  /-- Patch package being received. [bytes; 14 R504; empty] -/
  pkg : List Byte := []
  upd : UpdSt := {}
  img : ImgSt := {}
  mgmt : MgmtSt := {}
  /-- Restart count of firmware. [32; 14 R496; 0] -/
  restarts : Nat := 0
  /-- Patch level of the image's firmware version. [16; 14 R504; DC 0] -/
  imgVersion : Word := 0
  /-- Why device firmware starts next: 1 Gondola reset, 2 device reset, 3 power-on. [2; 14 R496; 3] -/
  cause : Nat := 3
  /-- Result of the last RESET command and of the last mux request. [3 + 2; 16 R532, R538; 0] -/
  rstResult : Nat := 0
  muxResult : Nat := 0
  /-- The CLOCK_SWITCH request that waits for a switch to end: mailbox, domain and request. [R496; 14 R497; none] -/
  muxAsk : Option (Nat × Nat × MbMsg) := none
deriving DecidableEq, Repr, Inhabited

/-! ### Debug -/

/-- The debug domain (R513). -/
structure DbgSt where
  /-- The session is open, its level and its key index. [1 + 2 + 8; 15 R513; 0] -/
  isOpen : Bool := false
  level : Nat := 0
  keyIdx : Nat := 0
  /-- The outstanding challenge: value, instant, level, key index. [128; 15 R514; none] -/
  chal : Option (BitVec 128 × Nat × Nat × Nat) := none
  /-- Consecutive failures. [8; 15 R515; 0] -/
  fails : Nat := 0
  /-- End of the lockout. [time; 15 R515; none] -/
  lockEnd : Option Nat := none
  /-- halt-on-start mask. [4; 15 R513; 0] -/
  hos : BitVec 4 := 0
  /-- Instant of the last frame that passed its CRC; while the clock is lost, the time since it. [time; 15 R513, R523; 0] -/
  lastFrame : Nat := 0
  /-- Final status and data words of the last response. [8, words; 15 R510; 0] -/
  status : Byte := 0
  answer : List Word := []
  /-- A frame was abandoned. [1; 15 R508; 0] -/
  abandoned : Bool := false
deriving DecidableEq, Repr, Inhabited

/-! ### Reel -/

/-- What reads of Reel have met (R214): uncorrectable reads of copy A by macro, and corrected words. -/
structure ReelSt where
  errs : Tbl Nat := {}
  /-- Corrected words, by the byte address of the word in Reel (R214). -/
  corrected : Tbl Nat := {}
  lastMacro : Nat := 0
deriving DecidableEq, Repr, Inhabited

/-- The whole state of the block. -/
structure State where
  /-- The queue of waiting commands, first in first out. The model's own. [list; model; empty] -/
  pending : List Instr := []
  /-- Time since power was first applied, in units of 0.25 ns. The model's own. [time; model; 0] -/
  now : Nat := 0
  /-- Counter of free values. The model's own. [Nat; model; DC 0] -/
  freeCtr : Nat := 0
  /-- Power, boot, straps, fuses, Fatal, temperatures, AVS. -/
  pwr : PwrSt := {}
  /-- The 206 clock domains. [12 R424] -/
  dom : Tbl DomSt := {}
  /-- Registers held as words. -/
  regs : RegSt := {}
  /-- The beat scheduler. -/
  beat : BeatSt := {}
  /-- The schedule table. -/
  sched : SchedSt := {}
  /-- The Logbook. -/
  log : LogSt := {}
  /-- Ripcord. -/
  flt : FltSt := {}
  /-- The train unit. -/
  trn : TrnSt := {}
  /-- Stage sets. -/
  stg : StgSt := {}
  /-- Lane fronts, lane training, quads, dies. -/
  lane : Tbl LaneSt := {}
  ltr : Tbl LaneTr := {}
  quad : Tbl QuadSt := {}
  die : Tbl DieSt := {}
  /-- I-port slots with ladder, link and roles. -/
  port : Tbl PortSt := {}
  /-- Path slots. -/
  path : Tbl PathSt := {}
  /-- Verdict pairs. -/
  vrd : Tbl PairSt := {}
  /-- Reel's error counts. -/
  reel : ReelSt := {}
  /-- Spool. -/
  spl : SplSt := {}
  /-- Store. -/
  sto : StoSt := {}
  /-- Envelope. -/
  env : EnvSt := {}
  /-- Gondola. -/
  gon : GonSt := {}
  /-- Debug domain. -/
  dbg : DbgSt := {}
deriving DecidableEq, Repr, Inhabited

/-- The state at the start of power-on reset (R433, R437): nothing queued, every register at its reset value. -/
def State.reset : State := {}

end Sys2Proof.Machine
end

