-- ==== Sys2Proof/Machine/Access.lean ====
section
/-! DEFINITION. Reading and changing one element of each table of the state, the configuration fields that the blocks
read from the register file, and the counters. -/

namespace Sys2Proof

/-- The path is a Guard-family path (R14). -/
def Mode.guardFam : Mode → Bool
  | .guard | .observe | .verdict => true
  | _ => false
/-- The path is a Drive-family path (R14). -/
def Mode.driveFam : Mode → Bool
  | .drive | .fanOut => true
  | _ => false
/-- The verdict pair of a path in this mode compares (R301). -/
def Mode.compares (m : Mode) : Bool := m == .verdict || m == .drive || m == .fanOut
/-- Guard or Drive family. -/
def Mode.family (m : Mode) : Bool := m.guardFam || m.driveFam
/-- The code of R14. -/
def Mode.code : Mode → Nat
  | .moored => 0 | .pass => 1 | .guard => 2 | .observe => 3 | .verdict => 4 | .drive => 5 | .fanOut => 6 | .survey => 7
end Sys2Proof

namespace Sys2Proof.Machine

/-! ### Elements -/

/-- Lane `l`. -/
def State.laneAt (s : State) (l : Nat) : LaneSt := s.lane.get {} l
/-- Change lane `l`. -/
def State.modLane (s : State) (l : Nat) (f : LaneSt → LaneSt) : State :=
  { s with lane := s.lane.set {} l (f (s.laneAt l)) }
/-- Training state of lane `l`. -/
def State.ltrAt (s : State) (l : Nat) : LaneTr := s.ltr.get {} l
/-- Change the training state of lane `l`. -/
def State.modLtr (s : State) (l : Nat) (f : LaneTr → LaneTr) : State :=
  { s with ltr := s.ltr.set {} l (f (s.ltrAt l)) }
/-- Quad `q`. -/
def State.quadAt (s : State) (q : Nat) : QuadSt := s.quad.get {} q
/-- Change quad `q`. -/
def State.modQuad (s : State) (q : Nat) (f : QuadSt → QuadSt) : State :=
  { s with quad := s.quad.set {} q (f (s.quadAt q)) }
/-- Lane die `j`. -/
def State.dieAt (s : State) (j : Nat) : DieSt := s.die.get {} j
/-- Change lane die `j`. -/
def State.modDie (s : State) (j : Nat) (f : DieSt → DieSt) : State :=
  { s with die := s.die.set {} j (f (s.dieAt j)) }
/-- I-port slot `n`. -/
def State.portAt (s : State) (n : Nat) : PortSt := s.port.get {} n
/-- Change I-port slot `n`. -/
def State.modPort (s : State) (n : Nat) (f : PortSt → PortSt) : State :=
  { s with port := s.port.set {} n (f (s.portAt n)) }
/-- Change the ladder of I-port slot `n`. -/
def State.modLad (s : State) (n : Nat) (f : LadderSt → LadderSt) : State :=
  s.modPort n (fun p => { p with lad := f p.lad })
/-- Change the link of I-port slot `n`. -/
def State.modLink (s : State) (n : Nat) (f : LinkSt → LinkSt) : State :=
  s.modPort n (fun p => { p with link := f p.link })
/-- Change the counters of I-port slot `n`. -/
def State.modCnt (s : State) (n : Nat) (f : QleCnt → QleCnt) : State :=
  s.modPort n (fun p => { p with cnt := f p.cnt })
/-- Path slot `n`. -/
def State.pathAt (s : State) (n : Nat) : PathSt := s.path.get {} n
/-- Arrival of the first unsent bit of the path (R222). -/
def PathSt.packAt (p : PathSt) : Option Nat := p.packArr.head?.map (·.2)
/-- The mode that the datapath of the path runs (R177). -/
def PathSt.dataMode (p : PathSt) : Mode := p.runs.getD p.mode
/-- Change path slot `n`. -/
def State.modPath (s : State) (n : Nat) (f : PathSt → PathSt) : State :=
  { s with path := s.path.set {} n (f (s.pathAt n)) }
/-- Verdict pair `n`. -/
def State.pairAt (s : State) (n : Nat) : PairSt := s.vrd.get {} n
/-- Change verdict pair `n`. -/
def State.modPair (s : State) (n : Nat) (f : PairSt → PairSt) : State :=
  { s with vrd := s.vrd.set {} n (f (s.pairAt n)) }
/-- Context `c` of pair `n`. -/
def State.ctxAt (s : State) (n c : Nat) : CtxSt := (s.pairAt n).ctx.get {} c
/-- Change context `c` of pair `n`. -/
def State.modCtx (s : State) (n c : Nat) (f : CtxSt → CtxSt) : State :=
  s.modPair n (fun p => { p with ctx := p.ctx.set {} c (f (p.ctx.get {} c)) })
/-- Stream `k`. -/
def State.strmAt (s : State) (k : Nat) : StrmSt := s.spl.strm.get {} k
/-- Change the Spool. -/
def State.modSpl (s : State) (f : SplSt → SplSt) : State := { s with spl := f s.spl }
/-- Change stream `k`. -/
def State.modStrm (s : State) (k : Nat) (f : StrmSt → StrmSt) : State :=
  s.modSpl (fun x => { x with strm := x.strm.set {} k (f (x.strm.get {} k)) })
/-- Stack `h`. -/
def State.hbmAt (s : State) (h : Nat) : HbmSt := s.spl.hbm.get {} h
/-- Change stack `h`. -/
def State.modHbm (s : State) (h : Nat) (f : HbmSt → HbmSt) : State :=
  s.modSpl (fun x => { x with hbm := x.hbm.set {} h (f (x.hbm.get {} h)) })
/-- Drive `d`. -/
def State.driveAt (s : State) (d : Nat) : DriveSt := s.sto.drive.get {} d
/-- Change drive `d`. -/
def State.modDrive (s : State) (d : Nat) (f : DriveSt → DriveSt) : State :=
  { s with sto := { s.sto with drive := s.sto.drive.set {} d (f (s.driveAt d)) } }
/-- Key record `i`. -/
def State.keyAt (s : State) (i : Nat) : KeySt := s.env.key.get {} i
/-- Change Envelope. -/
def State.modEnv (s : State) (f : EnvSt → EnvSt) : State := { s with env := f s.env }
/-- Change key record `i`. -/
def State.modKey (s : State) (i : Nat) (f : KeySt → KeySt) : State :=
  s.modEnv (fun e => { e with key := e.key.set {} i (f (e.key.get {} i)) })
/-- Change Gondola. -/
def State.modGon (s : State) (f : GonSt → GonSt) : State := { s with gon := f s.gon }
/-- Core `c`. -/
def State.coreAt (s : State) (c : Nat) : CoreSt := s.gon.core.get {} c
/-- Change core `c`. -/
def State.modCore (s : State) (c : Nat) (f : CoreSt → CoreSt) : State :=
  s.modGon (fun g => { g with core := g.core.set {} c (f (g.core.get {} c)) })
/-- Change lock `n`. -/
def State.modLock (s : State) (n : Nat) (f : LockSt → LockSt) : State :=
  s.modGon (fun g => { g with lock := g.lock.set {} n (f (g.lock.get {} n)) })
/-- Mailbox `m`. -/
def State.mbAt (s : State) (m : Nat) : MbSt := s.gon.mb.get {} m
/-- Change mailbox `m`. -/
def State.modMb (s : State) (m : Nat) (f : MbSt → MbSt) : State :=
  s.modGon (fun g => { g with mb := g.mb.set {} m (f (g.mb.get {} m)) })
/-- Patch unit `u`. -/
def State.unitAt (s : State) (u : Nat) : UnitSt := s.gon.unit.get {} u
/-- Change patch unit `u`. -/
def State.modUnit (s : State) (u : Nat) (f : UnitSt → UnitSt) : State :=
  s.modGon (fun g => { g with unit := g.unit.set {} u (f (g.unit.get {} u)) })
/-- Clock domain `d`. -/
def State.domAt (s : State) (d : Nat) : DomSt := s.dom.get {} d
/-- Change clock domain `d`. -/
def State.modDom (s : State) (d : Nat) (f : DomSt → DomSt) : State :=
  { s with dom := s.dom.set {} d (f (s.domAt d)) }
/-- Fault source `n`. -/
def State.srcAt (s : State) (n : Nat) : SrcSt := s.flt.src.get {} n
/-- Change fault source `n`. -/
def State.modSrc (s : State) (n : Nat) (f : SrcSt → SrcSt) : State :=
  { s with flt := { s.flt with src := s.flt.src.set {} n (f (s.srcAt n)) } }
/-- Train member `m`. -/
def State.peerAt (s : State) (m : Nat) : PeerSt := s.trn.peer.get {} m
/-- Change the train unit. -/
def State.modTrn (s : State) (f : TrnSt → TrnSt) : State := { s with trn := f s.trn }
/-- Change train member `m`. -/
def State.modPeer (s : State) (m : Nat) (f : PeerSt → PeerSt) : State :=
  s.modTrn (fun t => { t with peer := t.peer.set {} m (f (t.peer.get {} m)) })
/-- Schedule entry `k`. -/
def State.schedAt (s : State) (k : Nat) : SchedEnt := s.sched.ent.get {} k
/-- Set schedule entry `k`. -/
def State.setSched (s : State) (k : Nat) (e : SchedEnt) : State :=
  { s with sched := { s.sched with ent := s.sched.ent.set {} k e } }

/-- Change the power group. -/
def State.modPwr (s : State) (f : PwrSt → PwrSt) : State := { s with pwr := f s.pwr }
/-- Change the debug domain. -/
def State.modDbg (s : State) (f : DbgSt → DbgSt) : State := { s with dbg := f s.dbg }

/-! ### Time and free values -/

/-- One nanosecond, one microsecond and one millisecond in the unit of `now`. -/
def ns : Nat := 4
def us : Nat := 4000
def ms : Nat := 4000000

/-- Time never runs back: the instant `t` of a command, or the present one if that is later. -/
def State.at (s : State) (t : Nat) : State := { s with now := max s.now t }

/-- A counter that saturates at `m`. -/
def satAdd (m a b : Nat) : Nat := min m (a + b)

/-- Draw a free value. -/
def State.free (s : State) : Nat × State := (Config.freeValue s.freeCtr, { s with freeCtr := s.freeCtr + 1 })

/-! ### Registers as words -/

/-- The stored value of the register word at an address. -/
def State.reg (s : State) (a : Nat) : Word := s.regs.file.get (regReset a) a

/-- Store a register word. -/
def State.setReg (s : State) (a : Nat) (v : Word) : State :=
  { s with regs := { s.regs with file := s.regs.file.set (regReset a) a v } }

/-- Bits `[hi:lo]` of the register word at an address, as a number. -/
def State.bits (s : State) (a hi lo : Nat) : Nat := (s.reg a).toNat / 2 ^ lo % 2 ^ (hi + 1 - lo)

/-- Bit `i` of the register word at an address. -/
def State.bit (s : State) (a i : Nat) : Bool := Nat.testBit (s.reg a).toNat i

/-- The word of a retrain field that the hardware uses: the register's, or the one before a change that is not yet in force (R408). -/
def State.hw (s : State) (a : Nat) : Word := ((s.regs.old.get none a).map (·.2)).getD (s.reg a)

/-- Bits `[hi:lo]`, and bit `i`, of the word that the hardware uses. -/
def State.hwBits (s : State) (a hi lo : Nat) : Nat := (s.hw a).toNat / 2 ^ lo % 2 ^ (hi + 1 - lo)
def State.hwBit (s : State) (a i : Nat) : Bool := Nat.testBit (s.hw a).toNat i

/-! ### Configuration fields -/

/-- PATH_CFG of path `n` (R158). -/
def aPathCfg (n : Nat) : Nat := 0x100000 + n * 0x1000
def State.pathEn (s : State) (n : Nat) : Bool := s.bit (aPathCfg n) 15
def State.pathLead (s : State) (n : Nat) : Nat := s.bits (aPathCfg n) 14 10
def State.pathD (s : State) (n : Nat) : Nat := s.bits (aPathCfg n) 9 5
def State.pathI (s : State) (n : Nat) : Nat := s.bits (aPathCfg n) 4 0
def State.pathModes (s : State) (n : Nat) : Nat := s.bits (aPathCfg n) 31 24
/-- PATH_MODE.dark_min_us. -/
def State.darkMin (s : State) (n : Nat) : Nat := s.bits (aPathCfg n + 4) 31 16
/-- Ballast B of path `n` in 0.25 ns units: 32 ns times PATH_BALLAST.steps (R230). -/
def State.ballast (s : State) (n : Nat) : Nat := 32 * ns * s.bits (aPathCfg n + 0xC) 8 0
def State.dutRole (s : State) (n : Nat) : Nat := s.hwBits (aPathCfg n + 0x10) 4 4
def State.pcieMax (s : State) (n : Nat) : Nat := s.hwBits (aPathCfg n + 0x10) 2 0

/-- BRD_IPORT_CFG of I-port slot `n` (R154). -/
def aIport (n : Nat) : Nat := 0x200000 + 0x40 * n
def State.ipEn (s : State) (n : Nat) : Bool := s.bit (aIport n) 15
def State.ipTag (s : State) (n : Nat) : Nat := s.bits (aIport n) 14 10
def State.ipSpares (s : State) (n : Nat) : Nat := s.bits (aIport n) 9 8
def State.ipActive (s : State) (n : Nat) : Nat := s.bits (aIport n) 4 0
/-- Lanes of the port, a + s (R154). -/
def State.ipLanes (s : State) (n : Nat) : Nat := s.ipActive n + s.ipSpares n
/-- Physical I lane that the image puts at port position `k` (R154). -/
def State.cfgLane (s : State) (n k : Nat) : Nat := s.bits (aIport n + 0x10 + 4 * (k / 4)) (8 * (k % 4) + 5) (8 * (k % 4))
/-- The positions of a port. -/
def State.ipPositions (s : State) (n : Nat) : List Nat := List.range (s.ipLanes n)
/-- The lane that is treated as port position `k`: the lane whose identity carries it (R94), else the configured one. -/
def State.ipLane (s : State) (n k : Nat) : Nat :=
  (((s.ipPositions n).map (s.cfgLane n)).find? (fun l => (s.laneAt l).pos == some k)).getD (s.cfgLane n k)

/-- BRD_DPORT_CFG of D-port slot `n` (R155). -/
def aDport (n : Nat) : Nat := 0x201000 + 0x10 * n
def State.dpEn (s : State) (n : Nat) : Bool := s.bit (aDport n) 15
def State.dpFamily (s : State) (n : Nat) : Nat := s.bits (aDport n) 14 13
def State.dpWidth (s : State) (n : Nat) : Nat := s.bits (aDport n) 12 8
def State.dpFirst (s : State) (n : Nat) : Nat := s.bits (aDport n) 5 0

/-- QLE registers of slot `n` (R546). -/
def aQle (n : Nat) : Nat := 0x300000 + n * 0x1000
def State.needAt (s : State) (n rate : Nat) : Nat :=
  match rate with
  | 1 => s.hwBits (aQle n) 21 17
  | 2 => s.hwBits (aQle n) 26 22
  | 3 => s.hwBits (aQle n) 31 27
  | _ => 0
def State.gapNs (s : State) (n : Nat) : Nat := s.bits (aQle n + 0x10) 15 8
def State.replayNs (s : State) (n : Nat) : Nat := s.bits (aQle n + 0x10) 31 16
def State.replayLimit (s : State) (n : Nat) : Nat := s.bits (aQle n + 0x10) 4 0
def State.rtNs (s : State) (n : Nat) : Nat := s.bits (aQle n + 0x14) 15 0
def State.echoUs (s : State) (n : Nat) : Nat := s.bits (aQle n + 0x14) 31 16

/-- VRD registers of pair `n` (R547). -/
def aVrd (n : Nat) : Nat := 0x400000 + n * 0x1000
/-- SPL_STREAM_CFG of stream `k` (R549). -/
def aStrm (k : Nat) : Nat := 0x510000 + 0x10 * k
def State.stEn (s : State) (k : Nat) : Bool := s.bit (aStrm k) 31
def State.stLoop (s : State) (k : Nat) : Bool := s.bit (aStrm k) 30
def State.stDrain (s : State) (k : Nat) : Bool := s.bit (aStrm k) 29
def State.stSeal (s : State) (k : Nat) : Nat := s.bits (aStrm k) 28 19
def State.stKey (s : State) (k : Nat) : Nat := s.bits (aStrm k) 18 11
def State.stPath (s : State) (k : Nat) : Nat := s.bits (aStrm k) 10 6
def State.stDir (s : State) (k : Nat) : Nat := s.bits (aStrm k) 5 5
def State.stRole (s : State) (k : Nat) : Nat := s.bits (aStrm k) 2 0
def State.stWin (s : State) (k : Nat) : Nat := s.bits (aStrm k + 4) 23 0
def State.stPre (s : State) (k : Nat) : Nat := s.bits (aStrm k + 8) 23 0
def State.stPost (s : State) (k : Nat) : Nat := (s.reg (aStrm k + 0xC)).toNat
/-- STO_EXTENT of stream `k`. -/
def State.exBase (s : State) (k : Nat) : Nat :=
  (s.reg (0x701000 + 0x10 * k)).toNat + 2 ^ 32 * s.bits (0x701004 + 0x10 * k) 1 0
def State.exRows (s : State) (k : Nat) : Nat :=
  (s.reg (0x701008 + 0x10 * k)).toNat + 2 ^ 32 * s.bits (0x70100C + 0x10 * k) 1 0
/-- Streams that path `n` reads (R244). -/
def State.expStream (s : State) (n : Nat) : Nat := s.bits (0x530000 + 0x100 * n) 9 0
def State.mskStream (s : State) (n : Nat) : Nat := s.bits (0x530000 + 0x100 * n) 19 10
def State.repStream (s : State) (n : Nat) : Nat := s.bits (0x530000 + 0x100 * n) 29 20

/-- LANE_CFG of lane `l` (R553). -/
def State.laneRate (s : State) (l : Nat) : Nat := s.hwBits (laneBase l) 3 0
/-- The receiver of lane `l` requests precoding from its partner, `h1` telling that its DFE tap settled above 0.25 (R127).
Policy 3 is a host error (R8). -/
def State.wantsPrecode (s : State) (l : Nat) (h1 : Bool) : Bool :=
  match s.hwBits (laneBase l) 9 8 with
  | 0 => false
  | 1 => true
  | 2 => h1
  | _ => Config.hostError 127 l % 2 == 1
def State.laneUntrained (s : State) (l : Nat) : Bool := s.hwBit (laneBase l) 5

/-- FLT_CLASS of a source (R355). -/
def State.classReg (s : State) (n : Nat) : Nat := s.bits (0x20000 + 4 * (n / 16)) (2 * (n % 16) + 1) (2 * (n % 16))
/-- The grace time in 0.25 ns units, limited as R366 gives. -/
def State.graceTime (s : State) : Nat := us * min 10000000 (max 1 (s.bits 0x20804 23 0))

/-- The TRAIN_ID of the straps (R331). -/
def State.trainId (s : State) : Nat := s.pwr.strap.toNat / 2 ^ 4 % 64
/-- TRN_CFG fields (R350). -/
def State.trnEnable (s : State) : Bool := s.bit 0x40000 7
def State.coastBeats (s : State) : Nat := s.bits 0x40000 23 16
def State.reqConfirm (s : State) : Bool := s.bit 0x40000 8
def State.errLimit (s : State) : Nat := s.bits 0x40000 5 0

/-! ### Paths and their lanes -/

/-- The 32 path slots. -/
def paths : List Nat := List.range 32

/-- D lanes of path `n`, in the numbering of R58 (R155). -/
def State.dLanes (s : State) (n : Nat) : List Nat :=
  (List.range (s.dpWidth (s.pathD n))).map (fun k => 64 + s.dpFirst (s.pathD n) + k)

/-- I lanes of path `n`. -/
def State.iLanes (s : State) (n : Nat) : List Nat := (s.ipPositions (s.pathI n)).map (s.cfgLane (s.pathI n))

/-- I lanes of path `n` where it holds its I port: a lead or a path outside a fan-out group (R159). -/
def State.ownI (s : State) (n : Nat) : List Nat := if s.pathLead n = n then s.iLanes n else []

/-- The enabled path that owns I-port slot `ip`: the lead in a fan-out group (R159). -/
def State.pathOfI (s : State) (ip : Nat) : Option Nat :=
  paths.find? (fun n => s.pathEn n && s.pathI n == ip && s.pathLead n == n)

/-- The enabled path slot that owns D lane `l` (64-127), by its D port (R171). -/
def State.pathOfD (s : State) (l : Nat) : Option Nat := paths.find? (fun n => s.pathEn n && (s.dLanes n).contains l)

/-- The I-port slot that holds I lane `l`, with the position that the lane is treated as (R94, R156: at most one). -/
def State.portOfLane (s : State) (l : Nat) : Option (Nat × Nat) :=
  (List.range 32).findSome? (fun n =>
    if s.ipEn n then ((s.ipPositions n).find? (fun k => s.cfgLane n k == l)).map (fun k => (n, ((s.laneAt l).pos).getD k))
    else none)

/-- The path that a data lane serves: the owner of its port (R362). -/
def State.pathOfLane (s : State) (l : Nat) : Option Nat :=
  if l < 64 then (s.portOfLane l).bind (fun p => s.pathOfI p.1) else s.pathOfD l

/-- The lanes of a quad (R2, R352). -/
def quadLanes (q : Nat) : List Nat := (List.range 4).map (fun k => 4 * q + k)

/-- The members of the fan-out group that path `n` leads, itself included (R159). -/
def State.group (s : State) (n : Nat) : List Nat := paths.filter (fun m => s.pathEn m && s.pathLead m == s.pathLead n)

/-- The mode of a code of R14. -/
def modeOf (n : Nat) : Mode := [Mode.moored, .pass, .guard, .observe, .verdict, .drive, .fanOut, .survey].getD n .moored

/-- A path that a fault can target: enabled, not Moored and not in Survey (R362). -/
def State.targetable (s : State) (n : Nat) : Bool :=
  s.pathEn n && (s.pathAt n).mode != .moored && (s.pathAt n).mode != .survey

/-- A set of paths as a mask. -/
def pathMask (l : List Nat) : BitVec 32 := BitVec.ofNat 32 (l.foldl (fun a n => a ||| 2 ^ n) 0)

/-- The paths of a mask. -/
def maskPaths (m : BitVec 32) : List Nat := paths.filter (fun n => Nat.testBit m.toNat n)

/-- Change every element of a list of indices in turn. -/
def each (l : List Nat) (f : Nat → State → State) (s : State) : State := l.foldl (fun s n => f n s) s

/-! ### Rates -/

/-- Line rate of a code of R70 in units of 10 Mb/s. -/
def rate10 (c : Nat) : Nat :=
  [250, 500, 800, 1600, 3200, 6400, 12800, 10625, 21250, 250, 5600, 11200, 22400].getD c 0
/-- PAM4 modulation (R70). -/
def isPam4 (c : Nat) : Bool := [5, 6, 7, 8, 10, 11, 12].contains c
/-- LANE_CFG.rate code of a Qormos rate code of R140. -/
def qRate (r : Nat) : Nat := 9 + r

/-- The line rate that lane `l` runs: a lane of an I port in the Guard or Drive family runs its link's rate, a PCIe lane that
has received ordered sets the rate of its link. -/
def State.curRate (s : State) (l : Nat) : Nat :=
  let own := (s.ltrAt l).rate.getD (s.laneRate l)
  match s.portOfLane l with
  | some (ip, _) =>
    if l < 64 ∧ ((s.pathOfI ip).map (fun n => (s.pathAt n).mode.family)).getD false then qRate (s.portAt ip).lad.rate
    else own
  | none => own

/-- The rate whose coefficients lane `l` holds as it enters Moored (R105, R177): its link's on a Qormos lane. -/
def State.storeRate (s : State) (l : Nat) : Nat :=
  match (if l < 64 ∧ 9 ≤ s.laneRate l then s.portOfLane l else none) with
  | some (ip, _) => qRate (s.portAt ip).lad.rate
  | none => s.laneRate l

/-- Received polarity that the lane corrects: what its receiver found, on a raw D lane LANE_CFG.rx_invert (R92, R93). -/
def State.rxFlips (s : State) (l : Nat) (raw : Bool) : Bool := if raw then s.hwBit (laneBase l) 6 else (s.laneAt l).rxInv

/-- LANE_CFG.tx_invert of lane `l` (R93). -/
def State.txFlips (s : State) (l : Nat) : Bool := s.hwBit (laneBase l) 7

/-- Line bits per lane of a tunnel interval of width `w` (R220). -/
def intervalBits (w : Nat) : Nat := if w = 0 then 0 else 2048 / w

end Sys2Proof.Machine
end

