-- ==== Sys2Proof/Machine/Log.lean ====
section
/-! DEFINITION. Beat time and time stamps (R3-R5, R50, R53, R67), and the Logbook: committing entries with their
continuation entries, the reserve, and entries that find no room (R410-R415). -/

namespace Sys2Proof.Machine

/-! ### Beat time -/

/-- The instant at which the scheduler last evaluated the phase: the last whole nanosecond, but no earlier than the beat's edge
(R53). -/
def evaluated (t e : Nat) : Nat := max e (t / ns * ns)

/-- Phase at instant `t` in a beat whose local edge was `e`, with period `p`, as last evaluated (R53). -/
def phaseAt (t e p : Nat) : Nat := if p = 0 then 4095 else min 4095 (4096 * (evaluated t e - e) / p)

/-- The current beat time as a 60-bit number (R50). -/
def State.beatTime (s : State) : Nat :=
  let b := s.beat
  match b.st with
  | .none => 0
  | .lost => b.held
  | _ =>
    match b.period with
    | none => b.index * 4096
    | some p => b.index * 4096 + phaseAt s.now b.edge p

/-- The beat state's code (R50). -/
def BeatState.code : BeatState → Nat
  | .none => 0 | .acquiring => 1 | .locked => 2 | .lost => 3

/-- The pre-beat number that a stamp taken now carries (R5). -/
def State.preStamp (s : State) : Nat :=
  match s.beat.preClk with
  | none => s.beat.preNum
  | some c => if c = s.now / ns then s.beat.preNum else s.beat.preNum + 1

/-- The stamp of the present instant in the form of R411: beat time with the held flag, or pre-beat number with the
pre-beat flag. -/
def State.stamp (s : State) : BitVec 64 :=
  match s.beat.st with
  | .none => BitVec.ofNat 64 (2 ^ 63 + s.preStamp % 2 ^ 60)
  | .locked => BitVec.ofNat 64 (s.beatTime % 2 ^ 60)
  | _ => BitVec.ofNat 64 (2 ^ 60 + s.beatTime % 2 ^ 60)

/-- Take note that a stamp was taken (R5). -/
def State.stamped (s : State) : State :=
  match s.beat.st with
  | .none => { s with beat := { s.beat with preNum := s.preStamp, preClk := some (s.now / ns) } }
  | _ => s

/-! ### Origins -/

end Sys2Proof.Machine

namespace Sys2Proof

/-- Origin code of R412. -/
def Origin.code : Origin → Nat
  | .image _ => 0
  | .core c => 1 + c.val
  | .mgmt => 5
  | .ctrlFlit _ => 6
  | .trainPeer _ => 7
  | .debug => 8
  | .hardware => 9

/-- Origin instance of R412. -/
def Origin.inst : Origin → Nat
  | .image t => t
  | .ctrlFlit ip => ip.val
  | .trainPeer i => i.val
  | _ => 0

end Sys2Proof

namespace Sys2Proof.Machine

/-! ### Logbook -/

/-- An entry to be written with its CONT entries (R411, R413). -/
structure LogReq where
  kind : Nat
  origin : Origin
  hi : Nat := 0
  target : Nat := 0
  a : Nat := 0
  b : Nat := 0
  conts : List (Nat × Nat × Nat) := []
deriving DecidableEq, Repr

/-- Entries of the ring (R410) and of its reserve (R415). -/
def ringSize : Nat := 32768
def ringReserve : Nat := 128

/-- The kinds and origins that may use the reserve (R415). -/
def usesReserve (r : LogReq) : Bool :=
  match r.origin with
  | .hardware =>
    r.kind == 0x0A || (r.kind == 0x0C && (r.a == 1 || r.a == 2)) || (r.kind == 0x09 && (r.b == 2 || r.b == 3))
      || r.kind == 0x0D || r.kind == 0x19 || r.kind == 0x17
  | .trainPeer _ => r.kind == 0x17
  | _ => false

/-- The entries of a request, newest first, from sequence number `q`. -/
def logEntries (r : LogReq) (t : BitVec 64) (q : Nat) : List LogEnt :=
  let o := BitVec.ofNat 8 r.origin.code
  let d := BitVec.ofNat 16 (r.origin.inst % 256 + 256 * (r.hi % 256))
  let e : LogEnt := { seq := q, time := t, kind := BitVec.ofNat 8 r.kind, origin := o, detail := d,
                      target := BitVec.ofNat 32 r.target, a := BitVec.ofNat 32 r.a, b := BitVec.ofNat 32 r.b }
  let cs := (r.conts.zip (List.range r.conts.length)).map (fun x : (Nat × Nat × Nat) × Nat =>
    { e with seq := q + 1 + x.2, kind := 0x1F, target := BitVec.ofNat 32 x.1.1, a := BitVec.ofNat 32 x.1.2.1,
             b := BitVec.ofNat 32 x.1.2.2 })
  (e :: cs).reverse

/-- Append a request's entries to the ring. -/
def State.logPut (s : State) (r : LogReq) : State :=
  let n := 1 + r.conts.length
  let s' := s.stamped
  { s' with log := { s'.log with ring := logEntries r s.stamp (s.log.newest + 1) ++ s'.log.ring,
                                 used := s'.log.used + n, newest := s'.log.newest + n,
                                 since := if s.log.used = s.log.recorded then s.now else s.log.since } }

/-- There is room for the request's entries: normal room, or the reserve for those that may use it (R415). -/
def State.logRoom (s : State) (r : LogReq) : Bool :=
  let n := 1 + r.conts.length
  decide (s.log.used + n ≤ ringSize - ringReserve) || (usesReserve r && decide (s.log.used + n ≤ ringSize))

/-- A request's entries, committed all together or not at all (R414). -/
def State.commit (s : State) (r : LogReq) : Option State := if s.logRoom r then some (s.logPut r) else none

/-- The entries of an event that happens whether or not they find room (R414, R415). -/
def State.logEvent (s : State) (r : LogReq) : State :=
  let n := 1 + r.conts.length
  if s.logRoom r then s.logPut r
  else if usesReserve r then
    { s with flt := { s.flt with logLost := satAdd (2 ^ 32 - 1) s.flt.logLost n }, log := { s.log with lostDue := true } }
  else { s with log := { s.log with infoLost := satAdd (2 ^ 32 - 1) s.log.infoLost n, lostDue := true } }

/-- Entries still free (R416). -/
def State.logFree (s : State) : Nat := ringSize - s.log.used

/-- The PATH_PHASE entry of path `n` (R413). -/
def phaseEntry (o : Origin) (n mode phase cause : Nat) : LogReq :=
  { kind := 0x09, origin := o, target := n, a := mode + 16 * phase, b := cause }

/-- The REPORT entry of a range of path `n` (R413). -/
def reportEntry (n dir : Nat) (refused : Bool) (first last interval : Nat) : LogReq :=
  { kind := 0x0D, origin := .hardware, target := n + 2 ^ 17 * dir + (if refused then 2 ^ 18 else 0),
    a := first % 2 ^ 32, b := last % 2 ^ 32, conts := [(first / 2 ^ 32, last / 2 ^ 32, interval)] }

/-- The REPORT entry of a range of stream `k`. -/
def reportStream (k first last : Nat) : LogReq :=
  { kind := 0x0D, origin := .hardware, target := k + 2 ^ 16, a := first % 2 ^ 32, b := last % 2 ^ 32,
    conts := [(first / 2 ^ 32, last / 2 ^ 32, 0)] }

end Sys2Proof.Machine
end

