-- ==== Sys2Proof/Machine/Ops.lean ====
section
/-! DEFINITION. Operations that every family shares: poisoning of windows, FAULT flits and reports, entry into a path's
safe state (R363), Fatal (R371), the clock-loss path (R373), events to the cores (R485), and the raising of a fault source
with its record, entry and reaction (R355-R367). -/

namespace Sys2Proof.Machine

/-! ### Windows -/

/-- A window takes a cause of R324: the first in time is kept, each sets its bit. -/
def WinSt.take (w : WinSt) (c : Nat) : WinSt :=
  { w with cause := if w.causes = 0 then c else w.cause, causes := w.causes ||| BitVec.ofNat 16 (2 ^ c) }

/-- Every open context of pair `n` takes cause `c`, and so does every bank of it that is FORMING (R315, R317). -/
def poisonPair (n c : Nat) (s : State) : State :=
  each [0, 1, 2, 3] (fun k s =>
    if (s.ctxAt n k).isOpen then s.modCtx n k (fun x => { x with win := x.win.take c }) else s) s

/-! ### FAULT flits -/

/-- What a FAULT flit reports (R233). -/
structure FaultRep where
  source : Nat
  cls : Nat
  dirToI : Bool := false
  void : Bool := false
  device : Bool := false
  first : Nat := 0xFFFFFF
  last : Nat := 0xFFFFFF
  firstK : Nat := 0xFFFFFFFF
  lastK : Nat := 0xFFFFFFFF
deriving DecidableEq, Repr

/-- The payload of a FAULT flit (R233). -/
def faultPayload (r : FaultRep) (t : BitVec 64) : List Byte :=
  bytesOf 2 r.source ++ bytesOf 1 r.cls
    ++ bytesOf 1 ((if r.dirToI then 1 else 0) + (if r.void then 2 else 0) + (if r.device then 4 else 0))
    ++ bytesOf 8 (t &&& 0x8FFFFFFFFFFFFFFF#64).toNat ++ bytesOf 3 r.first ++ bytesOf 3 r.last
    ++ bytesOf 4 r.firstK ++ bytesOf 4 r.lastK

/-- A new sequenced flit joins those waiting, in the framing order of R196: FAULT flits first, then DATA with its
LINE_EVENT flits, then every other. -/
def TxFlit.group (f : TxFlit) : Nat := if f.typ = 6 then 0 else if f.typ = 1 ∨ (f.typ = 2 ∧ f.cls = 1) then 1 else 2

/-- Insert in framing order. -/
def enqueue (f : TxFlit) : List TxFlit → List TxFlit
  | [] => [f]
  | g :: t => if f.group < g.group then f :: g :: t else g :: enqueue f t

/-- Queue a flit on the link of I-port slot `ip`. -/
def State.sendFlit (s : State) (ip : Nat) (f : TxFlit) : State :=
  s.modLink ip (fun l => { l with wait := enqueue f l.wait })

/-- Queue a FAULT flit of path `n` (R233). -/
def State.sendFault (s : State) (n : Nat) (r : FaultRep) : State :=
  s.stamped.sendFlit (s.pathI n) { typ := 6, path := s.pathLead n, payload := faultPayload r s.stamp }

/-- Queue a CTRL flit of path `n` with a payload. -/
def State.sendCtrl (s : State) (n cls : Nat) (payload : List Byte) : State :=
  s.sendFlit (s.pathI n) { typ := 2, cls := cls, flags := BitVec.ofNat 8 (16 * cls), path := s.pathLead n, payload := payload }

/-- Free the accepted I→D DATA flits of path `n` that are not played out, and report them by sequence range in a FAULT
flit and a REPORT entry (R240, R32). A slip reports from the flit that is missing (R229). -/
def reportCells (n : Nat) (r : FaultRep) (s : State) : State :=
  let cells := ((s.portAt (s.pathI n)).link.cells).filter (fun c => c.typ = 1)
  match cells.head?, cells.getLast? with
  | some a, some b =>
    let k := (s.pathAt n).playNext
    let missing := r.source = srcPath n 1 ∧ a.interval ≠ k
    let q := if missing then (s.portAt (s.pathI n)).link.ack.toNat + 1 else a.seq.toNat
    let k := if missing then k else a.interval
    let s := s.modLink (s.pathI n) (fun l => { l with cells := l.cells.filter (fun c => c.typ ≠ 1) })
    let s := s.sendFault n { r with first := q, last := b.seq.toNat, firstK := k, lastK := b.interval }
    s.logEvent (reportEntry n 0 false q b.seq.toNat k)
  | _, _ => s.sendFault n r

/-- Report the run of D→I intervals that were not carried (R215). -/
def reportRun (n : Nat) (r : FaultRep) (s : State) : State :=
  match (s.pathAt n).lostRun with
  | none => s
  | some (a, b) =>
    let s := s.modPath n (fun p => { p with lostRun := none })
    let s := s.sendFault n { r with dirToI := true, firstK := a, lastK := b }
    s.logEvent (reportEntry n 1 false 0 0 a)

/-! ### The path safe state -/

/-- Streams that are listed, with a test on their number. -/
def State.streamsOf (s : State) (f : Nat → Bool) : List Nat := (s.spl.strm.entries.map (·.1)).filter f

/-- Capture streams of path `n`. -/
def State.captureOf (s : State) (n : Nat) : List Nat :=
  s.streamsOf (fun k => s.stEn k && s.stRole k == 0 && s.stPath k == n)

/-- Flag the records that span the safe state (R266). -/
def flagSafe (n : Nat) (s : State) : State :=
  each (s.captureOf n) (fun k s => s.modStrm k (fun x =>
    { x with cur := x.cur.map (fun r => { r with flags := r.flags ||| 4 }),
             evRec := x.evRec.map (fun r => { r with flags := r.flags ||| 4 }) })) s

/-- The members of a group that follow a stimulus: their D lanes carry the path's traffic (R22, R171). -/
def State.sites (s : State) (n : Nat) : List Nat := (s.group n).filter (fun m => (s.pathAt m).dOut == 1)

/-- A stimulus that no site of the group of path `n` follows any more ends (R171, R363). -/
def endStim (n : Nat) (s : State) : State :=
  if (s.sites n).isEmpty then s.modPath (s.pathLead n) (fun p => { p with stim := false }) else s

/-- Phase code (R176). -/
def Phase.code : Phase → Nat
  | .steady => 0 | .drain => 1 | .dark => 2 | .wake => 3 | .ladder => 4 | .train => 5

/-- The datapath part of a path's entry into its safe state (R363): transmitters, stimulus, tunnel, windows, captures,
training. A ladder stops, and every I lane sends HOLD sets at 2.5 Gb/s (R153). -/
def safeDatapath (n : Nat) (s : State) : State :=
  let p := s.pathAt n
  let s := each (s.dLanes n) (fun l s => s.modLane l (fun x => { x with txIdle := true })) s
  let s := if p.mode = .pass then each (s.iLanes n) (fun l s => s.modLane l (fun x => { x with txIdle := true })) s else s
  let s := s.modPath n (fun p => { p with
    safe := true, dOut := 0, timeline := none, packBits := [], packArr := [],
    ladStop := p.ladStop || p.phase = .ladder, dTrain := if p.dTrain = 1 then 0 else p.dTrain,
    upPend := p.upPend || p.phase = .ladder })
  let s := endStim n s
  let s := if s.pathLead n = n ∧ p.mode.family then
      s.modLink (s.pathI n) (fun l => { l with tunnel := 0, tunRx := l.tunRx.set none 1 none, rxCount := 0 }) else s
  let s := if p.phase = .ladder ∧ s.pathLead n = n then
      each (s.iLanes n) (fun l s => (s.modLtr l (fun x => { x with sends := 3 })).modLane l (fun x => { x with
        anchor := .search, eligible := false, txIdle := false, precTx := false, precRx := false }))
        (s.modLad (s.pathI n) (fun l => { l with rate := 0, changing := none, hold := none, sends := [] })) else s
  flagSafe n (poisonPair n 4 s)

/-- The cause retains the path's accepted flits, which are delivered after the bring-up (R33, R236, R239). -/
def Hold.retains : Hold → Bool
  | .reset | .domain _ => true
  | _ => false

/-- A path takes a holding cause (R364). -/
def State.addHold (s : State) (n : Nat) (h : Hold) : State :=
  s.modPath n (fun p => { p with holds := if p.holds.contains h then p.holds else p.holds ++ [h] })

/-- A path takes a holding cause; it enters its safe state if it is not in it (R363, R364). `flit` says whether a FAULT
flit is framed. In its safe state already, a path has accepted flits to report where a reset retained them (R240). -/
def enterSafe (n : Nat) (h : Hold) (r : FaultRep) (flit : Bool) (s : State) : State :=
  if !s.pathEn n then s else
  let s := s.addHold n h
  if (s.pathAt n).safe then
    (if flit && (s.pathAt n).mode.family && !h.retains && s.pathLead n == n
        && ((s.portAt (s.pathI n)).link.cells.any (fun c => c.typ == 1)) then reportCells n r s else s)
  else
  let s := safeDatapath n s
  let s := if flit && (s.pathAt n).mode.family then
      reportRun n r (if h.retains then s.sendFault n r else reportCells n r s) else s
  s.logEvent (phaseEntry .hardware n (s.pathAt n).mode.code (s.pathAt n).phase.code 2)

/-- A fault of the stimulus of a group puts every slot of it in its safe state (R171, R293). -/
def stimSafe (n src : Nat) (s : State) : State :=
  each (s.group n) (fun m s => enterSafe m (.source src) { source := src, cls := (s.srcAt src).cls } true s) s

/-! ### Events to the cores -/

/-- The route of event `e` to core `c` (R486). -/
def State.routed (s : State) (e c : Nat) : Bool :=
  if e = 2252 then c = 0 else s.bit (0x70800 + 4 * (e / 8)) (4 * (e % 8) + c)

/-- Deliver event `e` to the interrupt input of each routed core (R485); a core in WAIT that is not halted wakes. -/
def deliver (e : Nat) (s : State) : State :=
  each [0, 1, 2, 3] (fun c s =>
    if s.routed e c then
      s.modCore c (fun x => { x with events := if x.events.contains e then x.events else x.events ++ [e],
                                     waiting := x.waiting && x.halted })
    else s) s

/-! ### Fatal and clock loss -/

/-- Every data lane's transmitter in electrical idle with its common mode held. -/
def allIdle (s : State) : State := each (List.range 128) (fun l s => s.modLane l (fun x => { x with txIdle := true })) s

/-- Logbook entries that the LOG records of a list carry. -/
def logRecs (l : List Rec) : Nat := l.foldl (fun a r => a + r.payload.length / 32) 0

/-- Discard what is in staging (R261, R371); the entries of LOG records lost there stay in the ring (R410). -/
def discardStaging (s : State) : State :=
  let s := each (s.streamsOf (fun _ => true)) (fun k s => s.modStrm k (fun x =>
    { x with cur := none, evRec := none, staged := [], uncommitted := [] })) s
  { s with log := { s.log with recorded := logRecs (s.strmAt 1022).written } }

/-- The part of path `n` in the device-wide safe state of a Fatal raising (R371): its FAULT flit, with the ranges of R240,
is sent also when the path is in its safe state already. -/
def fatalPath (src n : Nat) (s : State) : State :=
  let r : FaultRep := { source := src, cls := 3, device := true }
  let p := s.pathAt n
  let cells := s.pathLead n == n && (s.portAt (s.pathI n)).link.cells.any (fun c => c.typ == 1)
  let s := enterSafe n .fatal r true s
  if p.safe && p.mode.family && !cells then s.sendFault n r else s

/-- A Fatal raising sets the Fatal latch and the device-wide safe state follows (R371). -/
def goFatal (src : Nat) (s : State) : State :=
  if s.pwr.fatal then s else
  let s := s.modPwr (fun p => { p with fatal := true, fatalSrc := src, fatalAt := s.now, txHiZ := p.txHiZ || src = srcGlobal 42 })
  let s := each (paths.filter s.pathEn) (fatalPath src) s
  discardStaging s

/-- The paths that enter their safe state by a Fatal raising (R360, R371): every enabled path that is not in it. -/
def State.fatalEnters (s : State) : List Nat :=
  if s.pwr.fatal then [] else paths.filter (fun n => s.pathEn n && !(s.pathAt n).safe)

/-- The clock-loss path (R373). -/
def clockLoss (src : Nat) (s : State) : State :=
  let t := s.stamp
  let rc := 2 ^ 95 + (src % 4096) * 2 ^ 64 + (t &&& 0x8FFFFFFFFFFFFFFF#64).toNat
  let s := allIdle s.stamped
  let s := each [0, 1, 2, 3] (fun h s => s.modHbm h (fun x => { x with selfRefresh := true })) s
  { s with pwr := { s.pwr with clkLost := true, avsRun := false, refSince := s.now },
           dbg := if s.pwr.clkLost then s.dbg else { s.dbg with lastFrame := s.now - s.dbg.lastFrame },
           flt := { s.flt with resetCause := BitVec.ofNat 96 rc } }

/-! ### Raising a source -/

/-- The source acts in the line regime now (R356). -/
def State.inLine (s : State) (src : Nat) : Bool :=
  let lineLane (l : Nat) : Bool := match s.pathOfLane l with
    | none => false
    | some n => (s.pathAt n).mode != .moored && (s.pathAt n).mode != .survey
  if src < 1280 then lineLane (src / 10)
  else if src < 1408 then (quadLanes ((src - 1280) / 4)).any lineLane
  else if src < 1920 then true
  else if src < 2080 then false
  else globalLine src

/-- The I port of path `n` keeps its bandwidth with the lanes of quad `q` dropped (R34). -/
def State.keepsBand (s : State) (n q : Nat) : Bool :=
  let ip := s.pathI n
  let p := s.portAt ip
  let left := (List.range 18).filter (fun k => Nat.testBit (p.active ||| p.pool).toNat k && s.ipLane ip k / 4 != q)
  (s.pathAt n).mode.family && p.up && decide (s.needAt ip p.lad.rate ≤ left.length)

/-- The targets of a raising of quad `q` (R171, R362): every path with a lane in it. A lost clock of I lanes is hidden while
the port keeps its bandwidth (R34). -/
def State.quadTargets (s : State) (q : Nat) (clock : Bool) : List Nat :=
  let here (l : Nat) : Bool := l / 4 == q
  paths.filter (fun n => s.pathEn n && ((s.dLanes n).any here ||
    (s.pathLead n == n && (s.iLanes n).any here && !(clock && s.keepsBand n q))))

/-- The target paths of a line-regime raising (R362). Sources whose targets another rule states hand them in. -/
def State.targetsOf (s : State) (src : Nat) : List Nat :=
  if src < 1280 then (s.pathOfLane (src / 10)).toList
  else if src < 1408 then s.quadTargets ((src - 1280) / 4) (decide (src % 4 < 2))
  else if src < 1920 then [(src - 1408) / 16]
  else []

/-- The state transition of a raising at class `cls` (R358). -/
def SrcSt.raised (x : SrcSt) (cls now : Nat) (event : Bool) (grace : Option Nat) (tg : BitVec 32) : SrcSt :=
  if cls = 0 then { x with cls := 0, cond := x.cond || !event, raisedAt := some now }
  else { x with raisedAt := some now, st := if event then 2 else 1, cls := cls, cond := !event, grace := grace.map (now + ·),
                targets := x.targets ||| tg }

/-- Append a record to the fault record queue and write its Logbook entry (R360). -/
def State.record (s : State) (src cls escal : Nat) (line : Bool) (reaction : Nat) (tg : BitVec 32) (detail : Nat) : State :=
  let x := s.srcAt src
  let cnt := x.merged + 1
  let cb := cls + 4 * s.classReg src + (if line then 0 else 16) + 32 * escal
  let rec1 : FltRec := { source := src, cls := BitVec.ofNat 8 cb, reaction := BitVec.ofNat 8 reaction, time := s.stamp,
                         paths := tg, detail := BitVec.ofNat 32 detail, count := BitVec.ofNat 32 cnt,
                         rseq := BitVec.ofNat 32 (s.flt.rseq + 1) }
  let full := decide (256 ≤ s.flt.recs.length)
  let s := s.stamped.modSrc src (fun x => { x with merged := 0, lastRec := some s.now })
  let s := { s with flt := { s.flt with
    recs := if full then s.flt.recs else s.flt.recs ++ [rec1], rseq := s.flt.rseq + 1,
    recLost := if full then satAdd 65535 s.flt.recLost 1 else s.flt.recLost } }
  s.logEvent { kind := 0x0A, origin := .hardware, hi := min 255 cnt, target := src, a := 256 * cb + reaction, b := tg.toNat }

/-- A raising of source `src` at class `cls`: its record and entry, its state, and the reaction of its class and regime
(R358, R360, R361). `cands` are the paths that its rule targets. -/
def raiseCls (src cls escal : Nat) (event : Bool) (cands : List Nat) (detail : Nat) (s : State) : State :=
  let line := s.inLine src || clockLossSrc src || alwaysFatal src
  let hw := clockLossSrc src || alwaysFatal src
  let tgts := if line && !hw && cls == 2 then cands.filter s.targetable else []
  let fresh := (if 3 ≤ cls ∧ !clockLossSrc src then s.fatalEnters else []) ++ tgts.filter (fun n => !(s.pathAt n).safe)
  let x := s.srcAt src
  if cls = 0 && decide (escal = 0) && (match x.lastRec with | none => false | some t => decide (s.now < t + ms)) then
    s.modSrc src (fun x => { (x.raised 0 s.now event none 0) with merged := x.merged + 1 })
  else
  let grace := if line || hw || decide (cls = 0) || decide (3 ≤ cls) then none else some s.graceTime
  let reaction := (if tgts.isEmpty then 0 else 1) + (if 3 ≤ cls ∧ !clockLossSrc src then 2 else 0)
    + (if clockLossSrc src then 4 else 0) + (if src = srcGlobal 35 then 8 else 0)
  let s := s.record src cls escal line reaction (pathMask fresh) detail
  let s := s.modSrc src (fun x => { (x.raised cls s.now event grace (pathMask tgts)) with detail := detail })
  let s := each tgts (fun n => enterSafe n (.source src) { source := src, cls := cls } true) s
  let s := if 3 ≤ cls ∧ !clockLossSrc src then goFatal src s else s
  let s := if clockLossSrc src then clockLoss src s else s
  deliver src s

/-- fault_overflow (R358, R360, R367) is raised when the queue was full at a record made since state `b`. A record of its own
raises it not again. -/
def overflowCheck (b s : State) : State :=
  let x := s.srcAt (srcGlobal 78)
  if 256 ≤ b.flt.recs.length ∧ b.flt.rseq ≠ s.flt.rseq then
    if x.st = 0 then raiseCls (srcGlobal 78) (s.classReg (srcGlobal 78)) 0 true [] 0 s
    else if x.st = 2 ∧ x.raisedAt ≠ some s.now then raiseCls (srcGlobal 78) (min 3 (x.cls + 1)) 1 true [] 0 s
    else s
  else s

/-- The class at which a detection of source `src` would leave it (R355, R367): that of its field out of IDLE, one more for a second
fault. -/
def State.nextCls (s : State) (src : Nat) : Nat :=
  let x := s.srcAt src
  if x.st = 0 then max (srcMin src) (s.classReg src) else if x.st = 2 then min 3 (x.cls + 1) else x.cls

/-- A detection of source `src`, with the class that its rule states if it states one (R355, R358, R367): out of IDLE it
raises at its class; in LATCHED it raises one class higher; while the condition lasts, and at the instant of the raising
itself, it raises nothing. -/
def detect (src : Nat) (stated : Option Nat) (event : Bool) (cands : List Nat) (detail : Nat) (s : State) : State :=
  let x := s.srcAt src
  let cls := max (srcMin src) (stated.getD (s.classReg src))
  if neverRaised src then s
  else if x.st = 0 then
    (if x.cond then s else overflowCheck s (raiseCls src cls 0 event cands detail s))
  else if x.st = 2 && x.raisedAt == some s.now then s
  else if x.st = 2 then overflowCheck s (raiseCls src (min 3 (x.cls + 1)) 1 event cands detail s)
  else s

/-- Raise source `src` with a detail. -/
def raiseD (src detail : Nat) (s : State) : State := detect src none (!isCondition src) (s.targetsOf src) detail s

/-- Raise source `src`. -/
def raise (src : Nat) (s : State) : State := raiseD src 0 s

/-- An underlying condition (`bit` < 8) or event of a grouped source begins (R357). -/
def raiseGroup (src : Nat) (bit : Option Nat) (s : State) : State :=
  let x := s.srcAt src
  match bit with
  | some b =>
    let s := s.modSrc src (fun x => { x with under := x.under ||| BitVec.ofNat 8 (2 ^ b) })
    if x.under = 0 then detect src none false [] 0 s else s
  | none => if x.under = 0 then detect src none true [] 0 s else s

/-- A change refused because the Logbook could not accept its entry raises log_refused (R414). -/
def logRefused (s : State) : State := raise (srcGlobal 71) s

/-- A request that takes effect only with its entries (R414): `f` is the change. -/
def withEntry (r : LogReq) (f : State → State) (s : State) : State :=
  match s.commit r with
  | some s' => f s'
  | none => logRefused s

end Sys2Proof.Machine
end

