-- ==== Sys2Proof/Machine/PathOps.lean ====
section
/-! DEFINITION. Operations on paths and ports that several families share: roles of port positions and forced swaps
(R164-R170), the start of a ladder and of a bring-up (R112-R115, R148, R177), tunnel messages (R235), leaving the safe
state (R364) and acknowledging a source (R359). -/

namespace Sys2Proof.Machine

/-! ### Positions -/

/-- Positions of a mask. -/
def positions (m : BitVec 18) : List Nat := (List.range 18).filter (fun k => Nat.testBit m.toNat k)
/-- The mask of one position. -/
def posBit (k : Nat) : BitVec 18 := BitVec.ofNat 18 (2 ^ k)
/-- The mask of a list of positions. -/
def posMask (l : List Nat) : BitVec 18 := l.foldl (fun m k => m ||| posBit k) 0
/-- How many positions a mask holds. -/
def popCount (m : BitVec 18) : Nat := (positions m).length

/-- Lanes that the port's rate needs (R161, R166). -/
def State.portNeed (s : State) (ip : Nat) : Nat := s.needAt ip (s.portAt ip).lad.rate

/-- The LANE entry of a drop or swap (R413). -/
def laneEntry (o : Origin) (lane ip op other hi : Nat) : LogReq :=
  { kind := 0x0C, origin := o, hi := hi, target := lane + 256 * ip, a := op, b := other }

/-- Bring the lowest-positioned lane of the spare pool into the active set: a forced swap (R166). Answers its position. -/
def forcedSwap (ip out : Nat) (s : State) : Option Nat × State :=
  match (positions (s.portAt ip).pool).head? with
  | none => (none, s)
  | some k =>
    let s := s.modPort ip (fun p => { p with
      active := p.active ||| posBit k, pool := p.pool &&& ~~~posBit k, forced := p.forced.set none k (some s.now) })
    let s := s.logEvent (laneEntry .hardware (s.ipLane ip k) ip 2 out 0)
    match s.pathOfI ip with
    | none => (some k, s)
    | some n => (some k, raise (srcPath n 12) s)

/-- A forced swap without a drop sends SWAP (R216, R218). No position leaves the active set, and the spec states no out field
for it: a free value. -/
def sendForced (ip k : Nat) (s : State) : State :=
  let x := s.free
  let i := (s.portAt ip).txIdx.get (0, 0) k
  let msg : SpareMsg := { op := 3, out := x.1 % 18, inn := k, cause := 6, tx := some { n := i.1, f := i.2 }, lost := none,
                          since := s.now, sentAt := s.now }
  x.2.modPort ip (fun p => { p with spare := p.spare ++ [msg] })

/-- Bring in spares until the active set meets its need or the pool is empty; with too few lanes the path raises
lanes_short (R166, R170, R364). -/
def meetNeed : Nat → Nat → State → State
  | 0, _, s => s
  | f + 1, ip, s =>
    if popCount (s.portAt ip).active < s.portNeed ip then
      match forcedSwap ip 0x1F s with
      | (some k, s') => meetNeed f ip (sendForced ip k s')
      | (none, s') =>
        match s'.pathOfI ip with
        | none => s'
        | some n => raise (srcPath n 5) s'
    else s

/-! ### Boundaries -/

/-- What has fired for path `p` joins what waits for its boundaries, behind what fired before (R62). -/
def waitAct (p : Nat) (x : PathAct) (s : State) : State :=
  { s with stg := { s.stg with switch := s.stg.switch.set [] p (s.stg.switch.get [] p ++ [x]) } }

/-! ### Taps and transmitters -/

/-- A tap field of 7 bits in two's complement (R82). -/
def tapOf (v : Nat) : Int := if v < 64 then v else (v : Int) - 128

/-- The taps c(-3) to c(+2) that LANE_TXFIR of lane `l` holds (R82, R553). -/
def State.txfir (s : State) (l : Nat) : List Int :=
  let a := laneBase l + 0x10
  [tapOf (s.bits a 6 0), tapOf (s.bits a 14 8), tapOf (s.bits a 22 16), tapOf (s.bits a 30 24),
   tapOf (s.bits (a + 4) 6 0), tapOf (s.bits (a + 4) 14 8)]

/-- A tap set may take effect: Σ|c| ≤ 64 and c(0) ≥ 16 (R83). -/
def tapsOk (c : List Int) : Bool := decide (c.foldl (fun a x => a + x.natAbs) 0 ≤ 64) && decide (16 ≤ c.getD 3 0)

/-- The lane is a D lane that carries raw patterns: of a Drive, Fan-out or Survey path (R70, R87, R93). -/
def State.rawLane (s : State) (l : Nat) : Bool :=
  decide (64 ≤ l) && decide (l < 128) && (match s.pathOfD l with
    | none => false
    | some n => (s.pathAt n).mode.driveFam || (s.pathAt n).mode == .survey)

/-- The lane uses fixed pre-emphasis (R87). -/
def State.fixedTaps (s : State) (l : Nat) : Bool := s.laneUntrained l || s.rawLane l

/-- Source policy_bound of lane `l` (R83, R295). -/
def tapRefused (l : Nat) (s : State) : State :=
  if l < 128 then raise (srcLane l 8) s else raiseGroup (srcStore (4 * (l - 128) + 2)) none s

/-- A tap set from LANE_TXFIR reaches the transmitter (R83, R87). -/
def retap (l : Nat) (s : State) : State :=
  let c := s.txfir l
  let c := if s.fixedTaps l then [0, 0, c.getD 2 0, c.getD 3 0, c.getD 4 0, 0] else c
  if tapsOk c then s.modLane l (fun x => { x with taps := c }) else tapRefused l s

/-- Fixed pre-emphasis is in force on those of some lanes that use it (R87, R112, R177). -/
def fixTaps (ls : List Nat) (s : State) : State := each ls (fun l s => if s.fixedTaps l then retap l s else s) s

/-- Swing of code `c` in mV (R84). -/
def swingMv (c : Nat) : Nat := 400 + 25 * min 32 c

/-- Swing of lane `l` in mV peak to peak (R84, R553). -/
def State.swing (s : State) (l : Nat) : Nat := swingMv (s.bits (laneBase l + 0x14) 21 16)

/-- Symbol value of a level in thirds (R82). -/
def symbolThirds (pam4 : Bool) (v : Nat) : Int := if pam4 then 2 * (v : Int) - 3 else if v = 0 then -3 else 3

/-- The differential output of lane `l` in units of 1/384 mV at a symbol with the levels of symbols n + 3 to n - 2; LANE_CFG.tx_invert
turns it round (R82, R93). -/
def State.txOut (s : State) (l : Nat) (levels : List Nat) : Int :=
  let sum := (((s.laneAt l).taps.zip levels).map (fun p => p.1 * symbolThirds (isPam4 (s.curRate l)) p.2)).foldl (· + ·) 0
  (if s.txFlips l then -1 else 1) * (s.swing l : Int) * sum

/-- Lane `l` is a spare of the I port of a Pass path, which stays idle (R16, R163). -/
def State.passSpare (s : State) (l : Nat) : Bool :=
  match (if l < 64 then s.portOfLane l else none) with
  | none => false
  | some (ip, _) => match s.pathOfI ip with
    | none => false
    | some n => (s.pathAt n).mode == .pass && (List.range (s.ipActive ip)).all (fun k => s.cfgLane ip k != l)

/-- The transmitters of some lanes send, spares of a Pass path apart. -/
def transmit (ls : List Nat) (s : State) : State :=
  each ls (fun l s => s.modLane l (fun x => { x with txIdle := s.passSpare l })) s

/-- What a retrain gives lanes anew: a transmitter that a short put at high impedance drives again (R97), a receiver's polarity
is found again (R92), and the terminations follow `opened` (R128). -/
def retrainLanes (ls : List Nat) (opened : Bool) (s : State) : State :=
  each ls (fun l s => (s.modLane l (fun x => { x with txHiZ := false, clean := 0, rxInv := false, txMem := 0, rxMem := 0 })).modLtr l
    (fun _ => { opened := opened })) s

/-! ### Bring-up -/

/-- A path takes a phase. A Drive-family path that reaches STEADY counts its capture intervals from 0 (R258). -/
def PathSt.toPhase (p : PathSt) (ph : Phase) : PathSt :=
  if ph = .steady ∧ p.phase ≠ .steady ∧ p.mode.driveFam then
    { p with phase := ph, playNext := 0, capK := 0, capBits := [] }
  else { p with phase := ph }

/-- Write a phase and its PATH_PHASE entry (R176, R413). -/
def setPhase (o : Origin) (cause n : Nat) (ph : Phase) (s : State) : State :=
  let s := s.modPath n (·.toPhase ph)
  s.logEvent (phaseEntry o n (s.pathAt n).mode.code ph.code cause)

/-- A lane that reaches Run takes a freeze recorded for it (R91). -/
def LaneSt.toRun (x : LaneSt) : LaneSt :=
  { x with st := .run, exiting := false, frozen := x.frozen || x.freezePend, freezePend := false }

/-- Windsock as a lane leaves Run (R103, R109): a scan is interrupted; in Doze the continuous monitor pauses, in Moored it is
off. -/
def LaneSt.wskStop (x : LaneSt) (doze : Bool) : LaneSt :=
  if x.wskOp = 0 ∨ (doze ∧ x.wskOp = 3) then x
  else { x with wskOp := 0, wskEnd := 2, wskCut := x.wskOp }

/-- Put a lane into a lane state (R104). A lane entering Moored stores its coefficients; a lane sent from Moored to Run stays
in Moored until it has converged from them (R105). Leaving Run interrupts Windsock (R109). -/
def laneTo (st : LaneState) (l : Nat) (s : State) : State :=
  let rate := s.storeRate l
  s.modLane l (fun x =>
    if st = .run then
      match x.st with
      | .run => x
      | .moored => { x with exiting := true }
      | _ => x.toRun
    else if x.st = st then { x with exiting := false }
    else
    { x.wskStop (st = .doze) with
             st := st, exiting := false,
             stored := if st = .moored ∧ x.st ≠ .unassigned then some (rate, x.eq) else x.stored,
             anchor := .search,
             txIdle := true,
             eligible := false })

/-- After the Fatal flush the lanes of I-port slot `ip` enter Moored once its FAULT flits are acknowledged (R371). -/
def fatalPort (ip : Nat) (s : State) : State :=
  let l := (s.portAt ip).link
  if s.pwr.fatalDone && (l.unres ++ l.wait).all (fun f => f.typ != 6) then
    each ((s.ipPositions ip).map (s.cfgLane ip)) (fun l s => laneTo .moored l s) s
  else s

/-- The ladder of an I port starts at step 1 (R148): every lane sends ADV sets at 2.5 Gb/s, the link is down, the
mailbox's queues are emptied (R494). -/
def startLadder (ip : Nat) (s : State) : State :=
  let s := s.modPort ip (fun p => { p with
    lad := { p.lad with step := 1, rate := 0, eligible := 0, since := s.now, ceiling := 0, partnerMax := 3,
                        partnerLead := false, partnerV1 := false, hold := none, precReq := none, precPeer := none,
                        precAck := none, precAcked := false, testOwn := none, testPeer := none, fellBack := false,
                        below := 0, sends := [], changing := none, resumed := false },
    up := false, active := 0, pool := 0, dropped := 0, spare := [], spareAns := [], txIdx := {},
    link := { p.link with tunnel := 0, tunMsg := none, tunAns := none, tunRx := {},
                          wait := p.link.wait.filter (fun f => !(f.typ == 2 && f.cls == 6)) }, spareRx := {} })
  let ls := (s.ipPositions ip).map (s.cfgLane ip)
  let s := each ls (fun l s =>
    (laneTo .run l (s.modLtr l (fun t => { t with sends := 1 }))).modLane l (fun x =>
      { x with eligible := false, anchor := .search, identOk := false, orderDone := false, pos := none, txIdle := false, precRx := false,
               precTx := false, bound := 0 })) (retrainLanes ls false s)
  s.modMb (1 + ip) (fun _ => {})

/-- The 16 bytes of a line event (R223). -/
def lineEventBytes (code mask k off data : Nat) : List Byte :=
  bytesOf 1 code ++ bytesOf 1 0 ++ bytesOf 2 mask ++ bytesOf 4 k ++ bytesOf 2 off ++ bytesOf 6 data

/-- Line event at the present D→I packing position of path `n` (R222, R223). -/
def State.eventNow (s : State) (n code mask data : Nat) : List Byte :=
  lineEventBytes code mask (s.pathAt n).packK (s.pathAt n).packOff data

/-- Terminations follow receiver detection on the other side: both sides of a PCIe path in Pass (R128). -/
def State.termFollows (s : State) (n : Nat) : Bool := (s.pathAt n).mode == .pass && s.dpFamily (s.pathD n) == 0

/-- The D side of path `n` trains from the standard's initial state, its lanes sending and its terminations presented (R114,
R128, R364). An Ethernet path tells the controller that the D segment is not ready (R139). -/
def startD (n : Nat) (s : State) : State :=
  let s := each (s.dLanes n) (laneTo .run) (retrainLanes (s.dLanes n) (s.termFollows n) s)
  let s := fixTaps (s.dLanes n) (transmit (s.dLanes n) s)
  let s := s.modPath n (fun p => { p with
    dTrain := 1, dOut := 1, dRate := none, miscD := false, kindD := 0, segReady := false, eiToD := 0, eiToI := 0 })
  if (s.pathAt n).mode.guardFam && s.dpFamily (s.pathD n) == 1 then s.sendCtrl n 1 (s.eventNow n 6 0 0) else s

/-- The D lanes of path `n` send the fill pattern with fixed pre-emphasis (R87, R177). -/
def startFill (n : Nat) (s : State) : State :=
  let s := each (s.dLanes n) (fun l s => (laneTo .run l s).modLtr l (fun t => { t with opened := false })) s
  (fixTaps (s.dLanes n) (transmit (s.dLanes n) s)).modPath n (fun p => { p with dOut := 2, dTrain := 0 })

/-- The D lanes of path `n` send the fill pattern; after a retrain change so do those of the whole fan-out group that it leads, but
for sites in their safe state (R407). -/
def fillSites (n : Nat) (all : Bool) (s : State) : State :=
  each (if all && (s.pathAt n).mode == .fanOut then (s.group n).filter (fun m => m != n && !(s.pathAt m).safe) else []) startFill
    (startFill n s)

/-- The registers' values of the retrain fields of path `n` come into force (R406-R409). -/
def freshen (n : Nat) (s : State) : State :=
  { s with regs := { s.regs with
    old := (s.regs.old.entries.filter (fun e => e.2.any (fun x => x.1 == n))).foldl (fun t e => t.set none e.1 none) s.regs.old } }

/-- Queue a TUNNEL message that repeats until it is answered (R235): op, flags, next_interval, hold_ns. Its answer is a new one. -/
def tunnelMsg (ip op flags nextK hold : Nat) (s : State) : State :=
  s.modLink ip (fun l =>
    { l with tunMsg := some (op, flags, nextK, hold), tunDue := 0x3FFFF, tunAt := s.now,
             tunRx := l.tunRx.set none (op + 1) none })

/-- The device starts a tunnel by sending START (R235); a ballast held for it is due (R230). -/
def startTunnel (n : Nat) (s : State) : State :=
  let ip := s.pathI n
  let fresh := (s.portAt ip).link.fresh
  let s := { s with stg := { s.stg with held := s.stg.held.map (fun h =>
    if h.cause = 2 ∧ h.path = n then { h with due := some s.now } else h) } }
  tunnelMsg ip 1 (if fresh then 1 else 0) 0 0 s

/-- New sequenced flits of a port that wait take their numbers without being sent (R240): those that meet `f`. -/
def numberWaiting (ip : Nat) (f : TxFlit → Bool) (s : State) : State :=
  s.modLink ip (fun l =>
    let ws := l.wait.filter f
    { l with
      next := l.next + BitVec.ofNat 24 ws.length, wait := l.wait.filter (fun w => !f w),
      unres := l.unres ++ (ws.zip (List.range ws.length)).map (fun w => { w.1 with seq := l.next + BitVec.ofNat 24 w.2 }) })

/-- The accepted I→D flits and the unresolved D→I flits that the end of a link drops are reported by sequence range (R31,
R32). -/
def reportLink (ip : Nat) (s : State) : State :=
  match s.pathOfI ip with
  | none => s
  | some n =>
    let l := (s.portAt ip).link
    let s := match l.cells.head?, l.cells.getLast? with
      | some a, some b => s.logEvent (reportEntry n 0 false a.seq.toNat b.seq.toNat a.interval)
      | _, _ => s
    match l.unres.head?, l.unres.getLast? with
    | some a, some b => s.logEvent (reportEntry n 1 false a.seq.toNat b.seq.toNat a.interval)
    | _, _ => s

/-- The Qormos link of an I port ends: its roles, its sequence state and its tunnel (R177, R407). What it had accepted and not
delivered is reported (R31). -/
def linkEnd (ip : Nat) (s : State) : State :=
  (reportLink ip (numberWaiting ip (fun f => f.typ == 1) s)).modPort ip (fun p =>
    { p with up := false, active := 0, pool := 0, dropped := 0, spare := [], spareAns := [], link := {},
             lad := { p.lad with step := 0, eligible := 0, sends := [], hold := none, changing := none } })

/-- A path's bring-up in its present mode from the dark state (R112, R177, R183). -/
def bringUp (o : Origin) (cause n : Nat) (s : State) : State :=
  let p := s.pathAt n
  if !s.pathEn n then s else
  let s := (freshen n s).modPath n (fun p => { p with
    miscI := false, miscD := false, ladStop := false, upPend := false, iTrain := 0, dTrain := 0, timeline := none })
  match p.mode with
  | .moored =>
    let s := each (s.dLanes n ++ s.ownI n) (fun l s => laneTo .moored l s) (if s.pathLead n = n then linkEnd (s.pathI n) s else s)
    setPhase o cause n .steady s
  | .pass =>
    let s := startD n (linkEnd (s.pathI n) s)
    let s := each (s.iLanes n) (laneTo .run) (retrainLanes (s.iLanes n) (s.termFollows n) s)
    let s := (fixTaps (s.iLanes n) (transmit (s.iLanes n) s)).modPath n (fun p => { p with iTrain := 1 })
    setPhase o cause n .train s
  | .survey =>
    let s := startFill n (retrainLanes (s.dLanes n ++ s.iLanes n) false (linkEnd (s.pathI n) s))
    let s := transmit (s.iLanes n) (each (s.iLanes n) (laneTo .run) s)
    setPhase o cause n .steady s
  | _ =>
    if s.pathLead n = n then
      let s := s.modPath n (fun p => { p with iTrain := 1 })
      setPhase o cause n .ladder (startLadder (s.pathI n) s)
    else setPhase o cause n .steady (startFill n (retrainLanes (s.dLanes n) false s))

end Sys2Proof.Machine
end

