-- ==== Sys2Proof/Machine/Timeline.lean ====
section
/-! DEFINITION. The timeline of a tunnel (R220, R223, R225): interval numbers, the durations of intervals through changes of the D
lanes' rate, nominal arrivals and slots. -/

namespace Sys2Proof.Machine

/-- Bytes of entry `i` of size `n` from offset `o`. -/
def entryAt (bs : List Byte) (o n i : Nat) : List Byte := fit n 0 ((bs.drop (o + n * i)).take n)

/-- Rate code of the D lanes of path `n` (R223). -/
def State.dRateOf (s : State) (n : Nat) : Nat := ((s.pathAt n).dRate).getD (s.laneRate (64 + s.dpFirst (s.pathD n)))

/-- Duration of `m` line bits per lane at a rate code, in 0.25 ns units. -/
def bitsTime (m code : Nat) : Nat := if rate10 code = 0 then 0 else 400 * m / rate10 code

/-- Duration of `k` tunnel intervals of path `n` at a rate code (R220). -/
def State.spanAt (s : State) (n k code : Nat) : Nat := bitsTime (k * intervalBits (s.dpWidth (s.pathD n))) code

/-- How far interval `b` lies after `a`, modulo 2^32 (R220). -/
def kAfter (a b : Nat) : Nat := (b + 2 ^ 32 - a % 2 ^ 32) % 2 ^ 32

/-- Interval `b` is not before interval `a` (R220). -/
def kFrom (a b : Nat) : Bool := decide (kAfter a b < 2 ^ 31)

/-- The entries of a LINE_EVENT flit (R223). -/
def lineEntries (pl : List Byte) : List (List Byte) :=
  ((List.range 16).map (fun i => entryAt pl 0 16 i)).filter (fun e => field e 0 1 != 0)

/-- A LINE_EVENT cell. -/
def RxCell.isLine (c : RxCell) : Bool := c.typ == 2 && c.cls == 1

/-- The RATE events among the accepted line events of path `n`: intervals and rate codes (R223). -/
def State.rateEvents (s : State) (n : Nat) : List (Nat × Nat) :=
  (((s.portAt (s.pathI n)).link.cells.filter (·.isLine)).flatMap (fun c => lineEntries c.payload)).filterMap (fun e =>
    if field e 0 1 = 4 then some (field e 4 4, field e 15 1) else none)

/-- The span from interval `k0` at a rate to a later interval `k`, each interval at its own rate (R225). -/
def State.spanFrom (s : State) (n k : Nat) : Nat → Nat → List (Nat × Nat) → Nat
  | k0, code, [] => s.spanAt n (kAfter k0 k) code
  | k0, code, e :: t =>
    if kFrom k0 e.1 && kFrom e.1 k then s.spanAt n (kAfter k0 e.1) code + s.spanFrom n k e.1 e.2 t else s.spanFrom n k k0 code t

/-- The span from interval `a` to a later interval `b` of path `n` (R225). -/
def State.span (s : State) (n a b : Nat) : Nat := s.spanFrom n b a (s.dRateOf n) (s.rateEvents n)

/-- Nominal arrival A(k) of interval `k` of path `n` (R225, R237); none while no timeline runs. -/
def State.nominal (s : State) (n k : Nat) : Option Nat :=
  ((s.pathAt n).timeline).map (fun tl => if kFrom tl.2 k then tl.1 + s.span n tl.2 k else tl.1 - s.span n k tl.2)

/-- The slot S(k) of interval `k` (R225, R237). -/
def State.slotTime (s : State) (n k : Nat) : Option Nat :=
  ((s.pathAt n).timeline).map (fun tl =>
    if kFrom tl.2 k then tl.1 + s.ballast n + s.span n tl.2 k else tl.1 + s.ballast n - s.span n k tl.2)

/-- The first of the intervals after `k` that a list, in rising order, does not hold contiguously (R237). -/
def contiguous : Nat → List Nat → Nat
  | k, [] => k
  | k, i :: t => if i = k then contiguous ((k + 1) % 2 ^ 32) t else contiguous k t

/-- What a resume of path `n` replays (R237): the interval that the instrument sends next, and hold_ns, rounded up. -/
def State.resumePlan (s : State) (n : Nat) : Nat × Nat :=
  let k0 := (s.pathAt n).playNext
  let k1 := contiguous k0 (((s.portAt (s.pathI n)).link.cells.filter (fun c => c.typ = 1)).map (·.interval))
  (k1, (s.span n k0 k1 + 64 * ns + 3 - s.ballast n) / ns)

end Sys2Proof.Machine
end

