-- ==== Sys2Proof/Machine/Spool.lean ====
section
/-! DEFINITION. Streams: the layout of records (R247-R249), admission and sealing (R258-R262), opening, closing, arming and
triggers (R264-R269, R297), reading of expected, mask and replay streams (R271, R272), releases (R271, R275) and the drain
into store rows (R283, R284, R465, R466). -/

namespace Sys2Proof.Machine

/-! ### Layout -/

/-- The path number, direction and rate that the header of a record of stream `k` carries (R247). A stream of role 5 or 6 has no owner
path, for which the rule gives no values: there the model writes 0 (DESIGN CHOICE, notes/assumptions/147.md). -/
def State.recPlace (s : State) (k : Nat) : Nat × Nat × Nat :=
  if 5 ≤ s.stRole k then (0, 0, 0) else (s.stPath k, s.stDir k, s.dRateOf (s.stPath k))

/-- The 64 header bytes of a record of stream `k` (R247). -/
def State.recHeader (s : State) (k : Nat) (r : Rec) : List Byte :=
  let pl := r.place
  bytesOf 1 1 ++ bytesOf 1 r.kind ++ bytesOf 2 k ++ bytesOf 8 r.seq ++ bytesOf 8 r.time.toNat ++ bytesOf 1 pl.1
    ++ bytesOf 1 pl.2.1 ++ bytesOf 2 r.laneMask.toNat ++ bytesOf 2 r.payload.length ++ bytesOf 1 (s.strmAt k).keyIdx
    ++ [r.flags] ++ bytesOf 4 r.gap ++ bytesOf 4 r.first ++ bytesOf 2 r.offset ++ bytesOf 1 pl.2.2 ++ bytesOf 1 0
    ++ bytesOf 4 r.aux ++ List.replicate 20 0

/-- The 4,096 bytes of a record as HBM holds it (R247, R249). -/
def State.recBytes (s : State) (k : Nat) (r : Rec) : List Byte :=
  let b := s.recHeader k r ++ fit 4000 0 r.payload
  b ++ bytesOf 8 (crc64 b) ++ List.replicate 24 0

/-! ### Room -/

/-- Record positions of stream `k` in use. -/
def StrmSt.used (x : StrmSt) : Nat :=
  x.staged.length + x.uncommitted.length + x.written.length + x.window.length + (if x.cur.isSome then 1 else 0)
    + (if x.evRec.isSome then 1 else 0) + x.mapping

/-- Record positions free in stream `k` (R253). -/
def State.posFree (s : State) (k : Nat) : Nat := 3 * s.stWin k - (s.strmAt k).used

/-- Streams of roles 0 and 1 of path `n`. -/
def State.recordOf (s : State) (n : Nat) : List Nat :=
  s.streamsOf (fun k => s.stEn k && decide (s.stRole k ≤ 1) && s.stPath k == n)

/-- HBM slots for `dirs` directions of the D lanes of path `n` (R186), with record overhead. -/
def State.lineSlots (s : State) (n dirs : Nat) : Nat :=
  (dirs * s.dpWidth (s.pathD n) * rate10 (s.laneRate (64 + s.dpFirst (s.pathD n))) * 4096 + 37499999) / 37500000

/-- HBM slots of path `n` for capture (R186): the rates of all captured directions summed. -/
def State.captureSlots (s : State) (n : Nat) : Nat :=
  s.lineSlots n (([0, 1].filter (fun d => (List.range 1024).any (fun k =>
    s.stEn k && s.stRole k == 0 && s.stPath k == n && s.stDir k == d))).length)

/-- Streams of role `r` of path `n`. -/
def State.roleOf (s : State) (n r : Nat) : List Nat := s.streamsOf (fun k => s.stEn k && s.stRole k == r && s.stPath k == n)

/-- HBM slots of path `n` (R184, R186): capture, and one item for each of its expected, mask and replay streams; in a fan-out group the
lead alone holds the replay item. -/
def State.pathSlots (s : State) (n : Nat) : Nat :=
  if !s.pathEn n then 0 else
  let has (r : Nat) : Nat := if (s.roleOf n r).isEmpty then 0 else s.lineSlots n 1
  s.captureSlots n + has 2 + has 3 + (if s.pathLead n = n then has 4 else 0)

/-- Records of path `n` in the HBM staging buffer (R261). -/
def State.stagingUsed (s : State) (n : Nat) : Nat :=
  (s.recordOf n).foldl (fun a k => let x := s.strmAt k
    a + x.staged.length + (if x.cur.isSome then 1 else 0) + (if x.evRec.isSome then 1 else 0) + x.mapping) 0

/-- The slot of the window of stream `k` has an uncorrectable error (R475). -/
def State.slotLost (s : State) (k : Nat) : Bool :=
  match (s.strmAt k).slot with
  | some o => Nat.testBit s.env.slotBad.toNat o
  | none => false

/-- Why a record of stream `k` is declined now: 0 staging, 1 window, 2 key (R260); none when it is admitted. -/
def State.declines (s : State) (k : Nat) : Option Nat :=
  if (s.strmAt k).slot.isNone || s.slotLost k then some 2
  else if s.posFree k < 2 then some 1
  else if 6 * s.captureSlots (s.stPath k) ≤ s.stagingUsed (s.stPath k) then some 0
  else none

/-- A record is declined for cause `c` (R260). -/
def StrmSt.decline (x : StrmSt) (c : Nat) : StrmSt :=
  { x with gap := satAdd (2 ^ 32 - 1) x.gap 1, gapTotal := satAdd (2 ^ 32 - 1) x.gapTotal 1, gapOpen := x.gapOpen + 1,
           decStaging := if c = 0 then x.decStaging + 1 else x.decStaging,
           decWindow := if c = 1 then x.decWindow + 1 else x.decWindow,
           decKey := if c = 2 then x.decKey + 1 else x.decKey }

/-- The record that begins now in stream `k`, admitted (R247, R260, R266). -/
def State.newRec (s : State) (k kind : Nat) (t : BitVec 64) (first off : Nat) (mask : BitVec 16) (aux : Nat) : Rec :=
  let x := s.strmAt k
  { kind := kind, seq := 0, time := t, payload := [], gap := x.gap, first := first, offset := off, laneMask := mask,
    aux := aux, flags := x.nextFlags ||| (if (s.pathAt (s.stPath k)).safe then 4 else 0), com := x.isOpen,
    place := s.recPlace k, begun := s.now }

/-- Admission of a record (R260): none when it is declined. -/
def openRec (k kind : Nat) (t : BitVec 64) (first off : Nat) (mask : BitVec 16) (aux : Nat) (s : State) :
    Option Rec × State :=
  match s.declines k with
  | some c => (none, s.modStrm k (·.decline c))
  | none => (some (s.newRec k kind t first off mask aux),
             (s.modStrm k (fun x => { x with gap := 0, nextFlags := 0 })).stamped)

/-! ### Sealing -/

/-- A PAD record (R248). -/
def padRec : Rec := { kind := 0x0B, seq := 0, time := 0, payload := [] }

/-- A record sealed at `now` takes the next sequence number and joins staging (R246, R262). -/
def StrmSt.stage (x : StrmSt) (now : Nat) (r : Rec) : StrmSt :=
  { x with staged := x.staged ++ [{ r with seq := x.next, sealedAt := now }], next := x.next + 1 }

/-- The row of stream `k` is completed with PAD records (R262, R265). -/
def StrmSt.padRow (x : StrmSt) : StrmSt :=
  { x with staged := x.staged ++ List.replicate ((3 - x.staged.length % 3) % 3) { padRec with com := x.isOpen } }

/-- The EVENT record being filled is sealed (R259, R262). -/
def sealEvents (k : Nat) (final : Bool) (s : State) : State :=
  s.modStrm k (fun x =>
    let y := { x with evRec := none, evSkip := 0 }
    match x.evRec with
    | none => y
    | some r => y.stage s.now { r with flags := if final then r.flags ||| 16 else r.flags, com := x.isOpen })

/-- Seal the record in progress of stream `k` (R262), and the EVENT record directly after it (R259); `final` gives the last of them
the final flag. -/
def sealCur (k : Nat) (final : Bool) (s : State) : State :=
  let x := s.strmAt k
  match x.cur with
  | none => sealEvents k final s
  | some r =>
    let last := final && x.evRec.isNone
    let s := s.modStrm k (fun x => ({ x with cur := none }).stage s.now
      { r with flags := if last then r.flags ||| 16 else r.flags, com := x.isOpen })
    sealEvents k final s

/-- The CAPTURE entry (R413). -/
def captureEntry (o : Origin) (k a b : Nat) : LogReq := { kind := 0x16, origin := o, target := k, a := a, b := b }

/-- The close of an open stream (R265): the record in progress is sealed as final, a CLOSE record takes the reserved
position, and the row is completed with PAD records. -/
def closeStream (k cause : Nat) (s : State) : State :=
  if !(s.strmAt k).isOpen then s else
  let s := sealCur k true s
  let t := s.stamp
  (s.modStrm k (fun x =>
    let c : Rec := { kind := 0x09, seq := 0, time := t, gap := x.gap, aux := cause, place := s.recPlace k,
                     payload := bytesOf 8 x.gapOpen ++ bytesOf 8 t.toNat }
    let y := (x.stage s.now c).padRow
    { y with isOpen := false, limit := 0, post := none, gap := 0, skip := 0, trigged := false, padDue := true,
             nextFlags := y.nextFlags &&& 8 })).stamped

/-- A close that the device brings about itself (R265), with its entry. -/
def closeOwn (k cause : Nat) (s : State) : State := closeStream k cause (s.logEvent (captureEntry .hardware k 2 cause))

/-- An armed stream is disarmed and its uncommitted records are discarded (R267, R269). -/
def disarmStream (k : Nat) (s : State) : State :=
  s.modStrm k (fun x => { x with armed := false, cur := none, evRec := none, evSkip := 0, skip := 0, uncommitted := [],
                                 staged := x.staged.filter (·.com) })

/-- The records left of a limit, none when it has no limit; a limit of 0 records is none (R264, R268). -/
def StrmSt.left (x : StrmSt) : Option Nat :=
  match x.post with
  | some n => some (if x.limit = 0 then n else min n x.limit)
  | none => if x.limit = 0 then none else some x.limit

/-- The cause with which a limit closes the stream (R265). -/
def StrmSt.limitCause (x : StrmSt) : Nat :=
  match x.post with
  | some n => if x.limit ≠ 0 ∧ x.limit < n then 2 else 3
  | none => 2

/-- `n` records of an open stream were sealed: its limits count them; at a limit the stream closes (R264, R265, R268). -/
def countLimits (k n : Nat) (s : State) : State :=
  let x := s.strmAt k
  if !x.isOpen then s else
  match x.left with
  | none => s
  | some l =>
    if l ≤ n then closeOwn k x.limitCause s
    else s.modStrm k (fun x => { x with post := x.post.map (· - n), limit := x.limit - n })

/-- Seal the record in progress of stream `k` at its own end (R262). A record that reaches a limit is left to the close,
which seals it with the final flag. -/
def sealFull (k : Nat) (s : State) : State :=
  let x := s.strmAt k
  let n := 1 + (if x.evRec.isNone then 0 else 1)
  if x.cur.isNone then s
  else if x.isOpen && (match x.left with | none => false | some l => decide (l ≤ n)) then closeOwn k x.limitCause s
  else countLimits k n (sealCur k false s)

/-! ### Line bytes and events -/

/-- Bytes of capture interval `first` from byte `off` reach stream `k` (R258-R260); `fuel` bounds the records filled. -/
def pushLine : Nat → Nat → Nat → Nat → BitVec 16 → List Byte → State → State
  | 0, _, _, _, _, _, s => s
  | fuel + 1, k, first, off, mask, bs, s =>
    let x := s.strmAt k
    if bs.isEmpty || !(x.isOpen || x.armed) then s
    else if 0 < x.skip then
      let m := min x.skip bs.length
      pushLine fuel k first (off + m) mask (bs.drop m) (s.modStrm k (fun x => { x with skip := x.skip - m }))
    else match x.cur with
    | none =>
      (match openRec k 0x01 s.stamp (first + off / 256) (off % 256) mask 0 s with
       | (none, s) => pushLine fuel k first off mask bs (s.modStrm k (fun x => { x with skip := 4000 }))
       | (some r, s) => pushLine fuel k first off mask bs (s.modStrm k (fun x => { x with cur := some r })))
    | some r =>
      let m := min (4000 - r.payload.length) bs.length
      let s := s.modStrm k (fun x => { x with cur := some { r with payload := r.payload ++ bs.take m } })
      if r.payload.length + m = 4000 then pushLine fuel k first (off + m) mask (bs.drop m) (sealFull k s)
      else s

/-- A line event joins the EVENT record of stream `k`, which is sealed at 250 entries (R248, R259). -/
def addEvent (k : Nat) (ev : List Byte) (s : State) : State :=
  let s := s.modStrm k (fun x => { x with evRec := x.evRec.map (fun r => { r with payload := r.payload ++ ev }) })
  if (s.strmAt k).evRec.any (fun r => decide (4000 ≤ r.payload.length)) then countLimits k 1 (sealEvents k false s) else s

/-- A line event reaches stream `k` (R259): the first one of an EVENT record decides its admission (R260). An EVENT record has no lane
payload, for which R247 gives no lane_mask: the model writes 0 (DESIGN CHOICE, notes/assumptions/147.md). -/
def pushEvent (k : Nat) (ev : List Byte) (s : State) : State :=
  let x := s.strmAt k
  if !(x.isOpen || x.armed) then s
  else if 0 < x.evSkip then s.modStrm k (fun x => { x with evSkip := x.evSkip - 1 })
  else if x.evRec.isSome then addEvent k ev s
  else match openRec k 0x02 s.stamp 0 0 0 0 s with
  | (none, s) => s.modStrm k (fun x => { x with evSkip := 249 })
  | (some r, s) => addEvent k ev (s.modStrm k (fun x => { x with evRec := some r }))

/-- The capture streams of path `n` in a direction. -/
def State.captureDir (s : State) (n dir : Nat) : List Nat := (s.captureOf n).filter (fun k => s.stDir k == dir)

/-- A whole capture interval of path `n` reaches its capture streams of a direction (R258, R259); in Fatal nothing is admitted
(R371). -/
def captureLine (n dir k : Nat) (bs : List Byte) (s : State) : State :=
  if s.pwr.fatal then s else
  let mask := BitVec.ofNat 16 (2 ^ s.dpWidth (s.pathD n) - 1)
  each (s.captureDir n dir) (fun st s => pushLine (4 + bs.length) st k 0 mask bs s) s

/-- A line event of path `n` reaches its capture streams of a direction (R259). -/
def captureEvent (n dir : Nat) (ev : List Byte) (s : State) : State :=
  if s.pwr.fatal then s else each (s.captureDir n dir) (fun st s => pushEvent st ev s) s

/-! ### Opening and triggers -/

/-- The kept records of an armed stream are committed in order; the first carries the pre-trigger flag (R268). Beside the last pre_rows
rows of HBM they are those of the row being filled, unless pre_rows is 0 (DEDUCED, notes/assumptions/63.md). -/
def commitKept (k : Nat) (s : State) : State :=
  let none0 := s.stPre k == 0
  s.modStrm k (fun x =>
    let unc := x.uncommitted ++ x.staged.filter (fun r => !r.com)
    let keep := (if none0 then [] else unc).map (fun r => { r with com := true })
    let flag (l : List Rec) : List Rec := match l with
      | [] => []
      | r :: t => { r with flags := r.flags ||| 1 } :: t
    let seqs := keep.map (·.seq)
    let all := flag keep
    let inHbm := x.uncommitted.map (·.seq)
    { x with uncommitted := [],
             written := x.written ++ all.filter (fun r => inHbm.contains r.seq),
             staged := x.staged.filter (·.com) ++ all.filter (fun r => !inHbm.contains r.seq),
             cur := if seqs.isEmpty then x.cur.map (fun r => { r with flags := r.flags ||| 1 }) else x.cur,
             nextFlags := if seqs.isEmpty ∧ x.cur.isNone then x.nextFlags ||| 1 else x.nextFlags,
             armed := false })

/-- CAPTURE_OPEN takes effect on stream `k` (R264, R269). -/
def openStream (k limit : Nat) (s : State) : State :=
  let x := s.strmAt k
  if x.isOpen || !(s.stEn k && decide (s.stRole k ≤ 1)) then s else
  let s := if x.armed then commitKept k s else s
  s.modStrm k (fun x => { x with isOpen := true, limit := limit, post := none, trigged := false, gapOpen := 0 })

/-- CAPTURE_CLOSE takes effect on stream `k` (R265, R269). -/
def closeCapture (k : Nat) (s : State) : State :=
  let x := s.strmAt k
  let s := if x.armed then disarmStream k s else closeStream k 1 s
  s.modStrm k (fun x => { x with closedAt := some s.now })

/-- TRIGGER_ARM takes effect on stream `k` (R267). -/
def armStream (k : Nat) (s : State) : State :=
  if (s.strmAt k).isOpen || !(s.stEn k && s.stRole k == 0) then s
  else s.modStrm k (fun x => { x with armed := true })

/-- A trigger sets the trigger flag on the record in progress, or on the next one (R247, R267). -/
def StrmSt.flagTrigger (x : StrmSt) : StrmSt :=
  match x.cur with
  | some r => { x with cur := some { r with flags := r.flags ||| 2 }, trigged := true }
  | none => { x with nextFlags := x.nextFlags ||| 2, trigged := true }

/-- A trigger of path `n` reaches capture stream `k` (R267, R268, R297). -/
def triggerStream (n k cause : Nat) (s : State) : State :=
  let x := s.strmAt k
  if x.closedAt = some s.now then s.logEvent (captureEntry .hardware k 6 0)
  else if x.armed then
    let s := commitKept k s
    let post := s.stPost k
    let s := s.modStrm k (fun x => ({ x with
      isOpen := true, post := if post = 0 then none else some post, limit := 0, gapOpen := 0 }).flagTrigger)
    let s := s.logEvent (captureEntry .hardware k 5 0)
    if (s.pathAt n).mode.guardFam then
      s.sendCtrl n 8 (bytesOf 1 0x13 ++ bytesOf 1 0 ++ bytesOf 2 k ++ bytesOf 8 s.stamp.toNat ++ bytesOf 1 cause)
    else s
  else if x.isOpen ∧ !x.trigged then s.modStrm k (·.flagTrigger)
  else s

/-- A trigger of path `n` (R267): cause 1 a first fail, 2 + r a hit of rule r. -/
def trigger (n cause : Nat) (s : State) : State := each (s.captureOf n) (fun k s => triggerStream n k cause s) s

/-- The captures of path `n` end of themselves with a cause: an armed stream is disarmed, an open one closed (R265). -/
def endCaptures (n cause : Nat) (s : State) : State :=
  each (s.captureOf n) (fun k s =>
    if (s.strmAt k).armed then disarmStream k (s.logEvent (captureEntry .hardware k 4 0))
    else if (s.strmAt k).isOpen then closeOwn k cause s else s) s

/-- A transition of path `n` between two modes ends its captures, unless both are Observe or Verdict (R180, R297). -/
def modeCapture (n : Nat) (old new : Mode) (s : State) : State :=
  let keeps (m : Mode) : Bool := m == .observe || m == .verdict
  if keeps old && keeps new then s else endCaptures n 4 s

/-! ### Rows, acceptance, release -/

/-- A row of stream `k` is written to HBM: its first three sealed records (R253, R262). -/
def writeRow (k : Nat) (s : State) : State :=
  let lim := 3 * s.stPre k
  s.modStrm k (fun x =>
    if x.staged.length < 3 then x else
    let row := (x.staged.take 3).map (fun r => { r with row := x.rowNext })
    let unc := x.uncommitted ++ row.filter (fun r => !r.com)
    { x with staged := x.staged.drop 3, rowNext := x.rowNext + 1, written := x.written ++ row.filter (·.com),
             uncommitted := unc.drop (unc.length - lim) })

/-- Positions of stream `k` up to sequence number `q` are released (R271, R275). -/
def releaseTo (k q : Nat) (s : State) : State :=
  s.modStrm k (fun x => { x with window := x.window.dropWhile (fun r => decide (r.seq ≤ q)),
                                 released := max x.released q })

/-- The STATUS message of stream `k` (R275). -/
def State.statusMsg (s : State) (k : Nat) : List Byte :=
  let x := s.strmAt k
  bytesOf 1 0x12 ++ bytesOf 1 0 ++ bytesOf 2 k ++ bytesOf 8 x.accepted ++ bytesOf 8 x.durable ++ bytesOf 8 x.released
    ++ bytesOf 4 (s.posFree k) ++ bytesOf 4 x.gap

/-- A release of a stream of roles 2-4 or of a capture stream with drain = 0; an unasked STATUS leaves whenever a stream
of roles 2-4 has freed 3,000 positions (R275). -/
def release (k q : Nat) (s : State) : State :=
  let before := s.posFree k
  let s := releaseTo k q s
  let freed := s.posFree k - before
  let total := (s.strmAt k).freed + freed
  if 2 ≤ s.stRole k ∧ s.stRole k ≤ 4 then
    let s := s.modStrm k (fun x => { x with freed := total % 3000 })
    if 3000 ≤ total ∧ (s.pathAt (s.stPath k)).mode.guardFam then s.sendCtrl (s.stPath k) 8 (s.statusMsg k) else s
  else s

/-! ### Reading -/

/-- spool_path of path `n` with its cause bit (R293): 0 expect_underrun, 1 stim_underrun, 2 read_poison, 3 load_error. -/
def raiseSpool (n cause : Nat) (s : State) : State :=
  raise (srcPath n 8) (s.modPath n (fun p => { p with splCause := p.splCause ||| BitVec.ofNat 4 (2 ^ cause) }))

/-- The accepted record of stream `k` that follows sequence number `q` in reading order (R272): the next committed one, or
with loop = 1 the first unreleased, once none that is committed follows. -/
def State.nextRead (s : State) (k q : Nat) : Option Rec :=
  let w := (s.strmAt k).window.filter (fun r => r.kind != 0x0B)
  match w.find? (fun r => decide (q < r.seq)) with
  | some r => some r
  | none =>
    let x := s.strmAt k
    if s.stLoop k && !(x.written ++ x.staged).any (fun r => r.com && r.kind != 0x0B && decide (q < r.seq)) then w.head? else none

/-- Records that the read-ahead of a read item of path `n` may hold: two frames of its slots (R186, R272). -/
def State.readAhead (s : State) (n : Nat) : Nat :=
  6 * s.lineSlots n 1

/-- One row read of stream `k` into its path's read-ahead (R255, R272): up to three accepted records. -/
def fetchRow : Nat → Nat → State → State
  | 0, _, s => s
  | f + 1, k, s =>
    let x := s.strmAt k
    if s.readAhead (s.stPath k) ≤ x.ahead.length then s else
    match s.nextRead k (x.ahead.getLast?.getD x.readSeq) with
    | none => s
    | some r => fetchRow f k (s.modStrm k (fun x => { x with ahead := x.ahead ++ [r.seq] }))

/-- The reader of stream `k` needs its next record (R272): it, or none on an underrun. The read pointer moves past it. -/
def needRec (k : Nat) (s : State) : Option Rec × State :=
  let x := s.strmAt k
  match x.ahead with
  | [] => (none, s)
  | q :: t => (x.window.find? (fun r => r.seq == q), s.modStrm k (fun x => { x with ahead := t, readSeq := q }))

/-- Reading of stream `k` starts after the last record read (R272, R303). -/
def startRead (k : Nat) (s : State) : State := fetchRow 3 k (s.modStrm k (fun x => { x with reading := true, ahead := [] }))

/-- Reading of stream `k` stops. -/
def stopRead (k : Nat) (s : State) : State := s.modStrm k (fun x => { x with reading := false, ahead := [] })

/-! ### Store rows (R282, R462, R463) -/

/-- Data positions of a store row (R282). -/
def State.storeN (s : State) : Nat := s.sto.group - 2

/-- The striped row that holds a record of stream `k` (R252, R253). -/
def State.hbmRow (s : State) (k : Nat) (r : Rec) : Nat := (s.strmAt k).baseRow + r.row % max 1 (s.stWin k)

/-- The slot under which a row of a stream is read and written (R469). -/
def State.rowSlot (s : State) (k row : Nat) : Nat :=
  let o := ((s.strmAt k).slot).getD 0
  if s.env.rkState ≠ 0 ∧ o = s.env.rkOld ∧ row < s.env.rkBoundary then s.env.rkNew else o

/-- The index of the key record under which the store block of a record of stream `k` is sealed (R463): that which decrypted its row;
for a PAD, a LOST or a JOURNAL block, which no row holds, that of the slot in the window's address. -/
def State.sealKey (s : State) (k : Nat) (r : Rec) : Nat :=
  let o := if r.kind = 0x08 ∨ r.kind = 0x0A ∨ r.kind = 0x0B then ((s.strmAt k).slot).getD 0 else s.rowSlot k (s.hbmRow k r)
  (s.env.slot.get none o).getD 0

/-- The store form of a record (R462), sealed under key index `i` with an invocation counter. -/
def State.storeForm (s : State) (k : Nat) (r : Rec) (i ctr : Nat) : List Byte :=
  let b := s.recBytes k r
  if i = 0 then b.take 44 ++ List.replicate 8 0 ++ (b.drop 52).take 4020 ++ List.replicate 24 0
  else
    let aad := b.take 44 ++ bytesOf 4 ctr ++ bytesOf 4 (s.keyAt i).keyId.toNat
    aad ++ fit 4036 0 (Config.gcmSeal (s.keyAt i).record ctr aad ((b.drop 52).take 4020)) ++ List.replicate 8 0

/-- The sum of two blocks (R282). -/
def xorBlock (a b : List Byte) : List Byte := (a.zip b).map (fun x => x.1 ^^^ x.2)

/-- P parity of data blocks (R282). -/
def parityP (ds : List (List Byte)) : List Byte := ds.foldl xorBlock (List.replicate 4096 0)

/-- Q parity of data blocks: the sum of g^j times data block j, with g = 2 in the field of R189 (R282). -/
def parityQ (ds : List (List Byte)) : List Byte :=
  (ds.zip (List.range ds.length)).foldl (fun a x =>
    xorBlock a (x.1.map (fun b => BitVec.ofNat 8 (gfMul (gfPow 2 x.2) b.toNat)))) (List.replicate 4096 0)

/-- The blocks of store row `p` on the `n` drives of the group, in order (R282). -/
def rowBlocks (n p : Nat) (ds : List (List Byte)) : List (List Byte) :=
  (List.range n).map (fun d =>
    if d = p % n then parityP ds else if d = (p + 1) % n then parityQ ds
    else ds.getD ((d + 2 * n - p % n - 2) % n) [])

/-- The store row of store index `i` of stream `k` (R282). -/
def State.storeRow (s : State) (k i : Nat) : Nat := s.exBase k + i / max 1 s.storeN % max 1 (s.exRows k)

/-- The store rows that records of stream `k` take from store index `idx` on, the first of a row (R282, R463): each block takes the next
counter value of its key record. -/
def State.storeRows (s : State) (k idx : Nat) (rs : List Rec) : List (Nat × List (List Byte)) :=
  let n := max 1 s.storeN
  let ks := rs.map (s.sealKey k)
  let form (p : Nat) : List Byte :=
    let i := ks.getD p 0
    s.storeForm k (rs.getD p padRec) i ((s.keyAt i).counter + (ks.take p).count i)
  (List.range ((rs.length + n - 1) / n)).map (fun j =>
    let p := s.storeRow k (idx + j * n)
    (p, rowBlocks s.sto.group p ((List.range n).map (fun q => form (j * n + q)))))

/-- Drives that a row is written to (R285, R286). -/
def State.liveDrives (s : State) : BitVec 16 :=
  BitVec.ofNat 16 (((List.range 16).filter (fun d => (s.driveAt d).st == 1 || (s.driveAt d).st == 3)).foldl (fun a d => a + 2 ^ d) 0)

/-- `n` counter values of the key record at index `i` are used: env_nonce_near at 2^31, env_nonce_exhausted at 2^32 (R465). -/
def useCounter (i n : Nat) (s : State) : State :=
  let c := (s.keyAt i).counter
  let s := s.modKey i (fun e => { e with counter := min (2 ^ 32) (c + n) })
  let s := if c < 2 ^ 31 ∧ 2 ^ 31 ≤ c + n then raiseD (srcGlobal 46) i s else s
  if c < 2 ^ 32 ∧ 2 ^ 32 ≤ c + n then raiseD (srcGlobal 47) i s else s

/-! ### Journal entries and snapshots (R276, R278, R466) -/

/-- The journal entry of stream `k` with a highest accepted number (R276). -/
def State.journalEntry (s : State) (k acc : Nat) : List Byte :=
  let x := s.strmAt k
  bytesOf 2 k ++ bytesOf 1 ((if x.isOpen then 1 else 0) + (if x.armed then 2 else 0) + (if s.stDrain k then 4 else 0))
    ++ bytesOf 1 x.keyIdx ++ bytesOf 8 acc ++ bytesOf 8 x.durable ++ bytesOf 8 x.storeIdx ++ bytesOf 4 x.gapTotal

/-- The counter entry of a key index with a mark (R466). -/
def State.counterEntry (s : State) (m : Nat × Nat) : List Byte :=
  bytesOf 1 m.1 ++ List.replicate 3 0 ++ bytesOf 4 (s.keyAt m.1).keyId.toNat ++ bytesOf 4 m.2 ++ List.replicate 20 0

/-- The JOURNAL records of snapshot `no` with marks (R278, R466): 125 entries each. -/
def State.snapshotRecs (s : State) (no : Nat) (marks : List (Nat × Nat)) : List Rec :=
  let es := (List.range 1024).map (fun k => s.journalEntry k (s.strmAt k).accepted)
    ++ (marks.filter (fun m => decide (0 < m.2))).map s.counterEntry
  (List.range ((es.length + 124) / 125)).map (fun i =>
    { kind := 0x08, seq := (s.strmAt 1023).next + i, time := s.stamp, aux := no,
      payload := ((es.drop (125 * i)).take 125).flatten })

/-- A snapshot starts (R278, R466): its records leave for the store, completed with PAD to whole rows. Its marks are raised by 2^20
where a counter has come within 2^19. -/
def startSnapshot (s : State) : State :=
  if s.spl.snapping ∨ s.sto.stopped then s else
  let marks := (s.env.key.entries.filter (fun e => e.2.loaded && e.2.kind == 1)).map (fun e =>
    (e.1, if e.2.mark ≤ e.2.counter + 2 ^ 19 then e.2.mark + 2 ^ 20 else e.2.mark))
  let n := max 1 s.storeN
  let recs := s.snapshotRecs (s.spl.snapNo + 1) marks
  let all := recs ++ List.replicate ((n - recs.length % n) % n) padRec
  let rows := s.storeRows 1023 (s.strmAt 1023).storeIdx all
  let i := s.sealKey 1023 padRec
  let s := { s with sto := { s.sto with rowsOut := rows } }
  let s := if i = 0 then s else useCounter i all.length s
  let s := s.modSpl (fun x => { x with
    snapNo := x.snapNo + 1, snapping := true, snapMarks := marks, snapRecs := recs, snapFrom := s.now, snapOn := s.liveDrives })
  each (s.streamsOf (fun _ => true)) (fun k s => s.modStrm k (fun x => { x with snapNew := x.accepted })) s

/-! ### The drain -/

/-- Records of stream `k` that are accepted and not durable, in order. -/
def StrmSt.toDrain (x : StrmSt) : List Rec := x.window.filter (fun r => r.kind != 0x0B && decide (x.durable < r.seq))

/-- Writing `n` records from store index `storeIdx` would overwrite a record that has not been released (R284). -/
def State.extentFull (s : State) (k n : Nat) : Bool :=
  let x := s.strmAt k
  decide (s.exRows k * s.storeN < x.storeIdx + n - x.storeRel)

/-- What the next store row write of stream `k` takes: how many records, and whether they complete a row (R282, R283). -/
def State.drainPlan (s : State) (k : Nat) : Nat × Bool :=
  let x := s.strmAt k
  let at0 := x.storeIdx % max s.storeN 1
  let cnt := min (s.storeN - at0) x.toDrain.length
  (cnt, decide (at0 + cnt = s.storeN))

/-- The data positions of the next store row write of stream `k` (R283): the records that the row holds already, those that are ready,
one that could not be read as LOST, and PAD. -/
def State.drainRecs (s : State) (k : Nat) : List Rec :=
  let x := s.strmAt k
  let old := x.window.filter (fun r => r.kind != 0x0B && decide (r.seq ≤ x.durable))
  let rs := old.drop (old.length - x.storeIdx % max s.storeN 1) ++ x.toDrain.take (s.drainPlan k).1
  rs.map (fun r => if r.poison then { r with kind := 0x0A, payload := [] } else r)
    ++ List.replicate (s.storeN - rs.length) padRec

/-- A store row write takes counter values of the records that seal its blocks (R463, R465, R466): false when one of them may not
seal, has too few left, or has to wait for a snapshot with a higher mark. -/
def takeCounters (k : Nat) (s : State) : Bool × State :=
  let ks := ((s.drainRecs k).map (s.sealKey k)).filter (· ≠ 0)
  let uses := ks.eraseDups.map (fun i => (i, ks.count i))
  if s.slotLost k || uses.any (fun u => (s.keyAt u.1).sealRefused || !(s.keyAt u.1).loaded) then (false, s)
  else match uses.find? (fun u => decide (2 ^ 32 < (s.keyAt u.1).counter + u.2)) with
  | some u => (false, useCounter u.1 u.2 s)
  | none =>
    if uses.any (fun u => decide ((s.keyAt u.1).mark < (s.keyAt u.1).counter + u.2)) then (false, startSnapshot s)
    else
      let s := uses.foldl (fun s u => useCounter u.1 u.2 s) s
      (true, if uses.any (fun u => decide ((s.keyAt u.1).mark ≤ (s.keyAt u.1).counter + 2 ^ 19)) then startSnapshot s else s)

/-- Store row writes of the drain queue that have not completed (R285). -/
def State.openWrites (s : State) : Nat := (s.streamsOf (fun k => decide (k < 1022) && decide (0 < (s.strmAt k).draining))).length

/-- Stream `k` has a store row to write (R283): n - 2 records are ready, or flush_us has passed, or it has closed. The drain queue of a
drive is 64 deep (R285). -/
def State.drainDue (s : State) (k : Nat) : Bool :=
  let x := s.strmAt k
  let p := s.drainPlan k
  s.stEn k && s.stDrain k && decide (4 ≤ s.sto.group) && !s.sto.stopped && !s.sto.lost && s.exRows k != 0 && x.draining == 0
    && p.1 != 0 && (p.2 || x.padDue || x.flushDue) && (decide (1022 ≤ k) || decide (s.openWrites < 64))

/-- The store row write of stream `k` that is due starts (R283), one Write to each live drive, unless its extent is full (R284) or its
seal waits (R466). -/
def startDrain (k : Nat) (s : State) : State :=
  let x := s.strmAt k
  let p := s.drainPlan k
  if !s.drainDue k then s
  else if s.extentFull k p.1 then
    if x.full then s else raise (srcStore 93) (s.modStrm k (fun x => { x with full := true }))
  else
    let rows := s.storeRows k (x.storeIdx - x.storeIdx % max s.storeN 1) (s.drainRecs k)
    match takeCounters k s with
    | (false, s) => s
    | (true, s) =>
      let s := { s with sto := { s.sto with rowsOut := rows } }
      s.modStrm k (fun x => { x with
        draining := p.1, full := false, drainPad := !p.2 && x.padDue, drainGot := 0, flushDue := false,
        drainOn := s.liveDrives, drainAt := s.now })

/-- The store row write of stream `k` is complete (R283): its records are durable, a poison one as a LOST record; the
positions of a complete row are freed. -/
def endDrain (k : Nat) (s : State) : State :=
  let x := s.strmAt k
  let n := max s.storeN 1
  let recs := x.toDrain.take x.draining
  match recs.getLast? with
  | none => s.modStrm k (fun x => { x with draining := 0, drainPad := false, drainOn := 0 })
  | some r =>
    let idx := x.storeIdx + x.draining
    let idx := if x.drainPad ∧ idx % n ≠ 0 then idx + (n - idx % n) else idx
    let whole := decide (idx % n = 0)
    s.modStrm k (fun x => { x with
      durable := r.seq, storeIdx := idx, lostRecs := x.lostRecs ++ (recs.filter (·.poison)).map (·.seq),
      stored := x.stored ++ (recs.zip (List.range recs.length)).map (fun y => (y.1.seq, x.storeIdx + y.2)), draining := 0,
      drainPad := false, drainOn := 0, padDue := x.padDue && !(x.drainPad || (x.toDrain.drop x.draining).isEmpty),
      window := if whole then x.window.dropWhile (fun y => decide (y.seq ≤ r.seq)) else x.window })

/-- A drive's write of a row of stream `k` has completed, or will not (R283, R285): with the last of them the row is durable. -/
def writeDone (d k : Nat) (s : State) : State :=
  let x := s.strmAt k
  if !(x.drainOn.getLsbD d) then s else
  let s := s.modStrm k (fun x => { x with drainOn := x.drainOn &&& ~~~BitVec.ofNat 16 (2 ^ d) })
  if (s.strmAt k).drainOn = 0 then endDrain k s else s

/-! ### The Logbook's stream -/

/-- The 32 bytes of a Logbook entry (R411). -/
def entryBytes (e : LogEnt) : List Byte :=
  bytesOf 8 e.seq ++ bytesOf 8 e.time.toNat ++ [e.kind] ++ [e.origin] ++ bytesOf 2 e.detail.toNat
    ++ bytesOf 4 e.target.toNat ++ bytesOf 4 e.a.toNat ++ bytesOf 4 e.b.toNat

/-- A LOG record with the oldest entries of the ring that no LOG record carries yet, at most 125 (R410, R418). -/
def sealLog (s : State) : State :=
  let n := min 125 (s.log.used - s.log.recorded)
  if n = 0 || !s.stEn 1022 || s.posFree 1022 < 1 || (s.strmAt 1022).slot.isNone then s else
  let ents := ((s.log.ring.drop (s.log.used - s.log.recorded - n)).take n).reverse
  let t := (ents.head?.map (·.time)).getD 0
  let s := { s with log := { s.log with recorded := s.log.recorded + n, since := s.now } }
  s.modStrm 1022 (fun x => x.stage s.now { kind := 0x07, seq := 0, time := t, payload := ents.flatMap entryBytes })

/-- A LOG record that becomes accepted takes its entries from the ring (R410). -/
def acceptLog (r : Rec) (s : State) : State :=
  let n := r.payload.length / 32
  { s with log := { s.log with ring := s.log.ring.take (s.log.used - n), used := s.log.used - n,
                               recorded := s.log.recorded - n, mirrored := s.log.mirrored + n } }

end Sys2Proof.Machine
end

