-- ==== Sys2Proof/Machine/Verdict.lean ====
section
/-! DEFINITION. Verdict pairs: generators and stimulus intervals (R305-R307), expected data and alignment (R302-R310),
protocol compare (R311-R313), results (R318-R322), the fail bitmap (R323), opening, closing and forming (R315-R317,
R324-R326), and a pair mismatch (R299, R300). -/

namespace Sys2Proof.Machine

/-! ### Configuration -/

/-- VRD_CFG fields of pair `n` (R303). -/
def State.vrdProto (s : State) (n : Nat) : Bool := s.bit (aVrd n) 0
def State.vrdSource (s : State) (n : Nat) : Nat := s.bits (aVrd n) 2 1
def State.vrdMaskEn (s : State) (n : Nat) : Bool := s.bit (aVrd n) 3
/-- VRD_EXPECT_SEQ. -/
def State.expectSeq (s : State) (n : Nat) : Nat := (s.reg (aVrd n + 8)).toNat + 2 ^ 32 * (s.reg (aVrd n + 0xC)).toNat
/-- VRD_ALIGN fields (R303). -/
def State.alignMode (s : State) (n : Nat) : Nat := s.bits (aVrd n + 0x10) 31 30
def State.syncErr (s : State) (n : Nat) : Nat := s.bits (aVrd n + 0x10) 29 26
def State.syncLane (s : State) (n : Nat) : Nat := s.bits (aVrd n + 0x10) 25 22
def State.delayBits (s : State) (n : Nat) : Nat := s.bits (aVrd n + 0x10) 17 0
def State.searchMin (s : State) (n : Nat) : Nat := s.bits (aVrd n + 0x14) 17 0
def State.searchMax (s : State) (n : Nat) : Nat := s.bits (aVrd n + 0x18) 17 0
/-- VRD_CTX_CFG and VRD_CTX_LIMIT of context `c` (R314). -/
def aCtx (n c : Nat) : Nat := aVrd n + 0x400 + 0x40 * c
def State.ctxMask (s : State) (n c : Nat) : Nat := s.bits (aCtx n c) 31 16
def State.ctxMetric (s : State) (n c : Nat) : Nat := s.bits (aCtx n c) 9 8
def State.ctxMargin (s : State) (n c : Nat) : Nat := s.bits (aCtx n c) 15 10
def State.ctxMap (s : State) (n c : Nat) : Bool := s.bit (aCtx n c) 1
def State.ctxNotify (s : State) (n c : Nat) : Bool := s.bit (aCtx n c) 0
def State.ctxGran (s : State) (n c : Nat) : Nat := s.bits (aCtx n c + 4) 5 0
def State.ctxHist (s : State) (n c : Nat) : Nat := s.bits (aCtx n c + 4) 13 8
def State.failLimit (s : State) (n c : Nat) : Nat :=
  (s.reg (aCtx n c + 8)).toNat + 2 ^ 32 * s.bits (aCtx n c + 0xC) 15 0
def State.fecLimit (s : State) (n c : Nat) : Nat := (s.reg (aCtx n c + 0x10)).toNat
def State.crcLimit (s : State) (n c : Nat) : Nat := (s.reg (aCtx n c + 0x14)).toNat

/-- The four contexts. -/
def ctxs : List Nat := [0, 1, 2, 3]

/-- The open contexts of pair `n`. -/
def State.openCtxs (s : State) (n : Nat) : List Nat := ctxs.filter (fun c => (s.ctxAt n c).isOpen)

/-- A 48-bit saturating count. -/
def max48 : Nat := 2 ^ 48 - 1

/-- The stamp of a window or first fail: beat time with the pre-beat flag (R326). -/
def State.vtime (s : State) : BitVec 64 := s.stamp &&& 0x8FFFFFFFFFFFFFFF#64

/-! ### Generators -/

/-- The polynomial in force for pair `n` (R305). -/
def State.pgPoly (s : State) (n : Nat) : Nat :=
  prbsPoly (s.bits (aVrd n + 0x20) 2 0) ((s.reg (aVrd n + 0x28)).toNat + 2 ^ 32 * (s.reg (aVrd n + 0x2C)).toNat)

/-- Lane `k` of pair `n` generates inverted bits (R305). -/
def State.pgInv (s : State) (n k : Nat) : Bool := s.bit (aVrd n + 0x20) 4 != s.bit (aVrd n + 0x20) (16 + k)

/-- The start of a generator of pair `n` for `w` lanes (R306, R307). -/
def State.genStart (s : State) (n w : Nat) : Gen :=
  let seed := (s.reg (aVrd n + 0x30)).toNat + 2 ^ 32 * (s.reg (aVrd n + 0x34)).toNat
  { regs := List.replicate w ((List.range 64).map (fun t => Nat.testBit seed t)),
    addr := (s.reg (aVrd n + 0x40)).toNat + 2 ^ 32 * (s.reg (aVrd n + 0x44)).toNat, step := 0 }

/-- The data word of step `i` at address `a` (R307); the host-error modes give a free choice. -/
def adgData (dmode a i : Nat) : Nat :=
  match dmode with
  | 0 => a
  | 1 => 2 ^ 64 - 1 - a
  | 2 => prbs31Word a
  | 3 => 2 ^ (i % 64)
  | 4 => if i % 2 = 0 then 0x5555555555555555 else 0xAAAAAAAAAAAAAAAA
  | _ => Config.hostError a i % 2 ^ 64

/-- `m` steps of the address-and-data sequence as bytes (R307). -/
def adgSteps (emit : Bool) (dmode start stride limit : Nat) : Nat → Gen → List Byte × Gen
  | 0, g => ([], g)
  | m + 1, g =>
    let a' := (g.addr + stride) % 2 ^ 64
    let r := adgSteps emit dmode start stride limit m { g with addr := if limit < a' then start else a', step := g.step + 1 }
    ((if emit then bytesOf 8 g.addr else []) ++ bytesOf 8 (adgData dmode g.addr g.step) ++ r.1, r.2)

/-- Invert the lanes' blocks of an interval as VRD_PG_CFG gives (R305). -/
def State.invertInterval (s : State) (n w : Nat) (bs : List Byte) : List Byte :=
  let l := intervalBits w
  let bits := unpackBits bs
  packBits 256 ((bits.zip (List.range bits.length)).map (fun p =>
    p.1 != (decide (0 < l) && decide (p.2 / (max l 1) < w) && s.pgInv n (p.2 / (max l 1)))))

/-- The next interval of pair `n`'s generator in the LINE layout of R304 for `w` lanes. -/
def State.genInterval (s : State) (n w : Nat) (g : Gen) : List Byte × Gen :=
  let l := intervalBits w
  if s.bits (aVrd n + 0x20) 2 0 = 7 then
    let emit := s.bit (aVrd n + 0x38) 3
    let w64 (o : Nat) : Nat := (s.reg (aVrd n + o)).toNat + 2 ^ 32 * (s.reg (aVrd n + o + 4)).toNat
    let r := adgSteps emit (s.bits (aVrd n + 0x38) 2 0) (w64 0x40) (w64 0x48) (w64 0x50) (if emit then 16 else 32) g
    (s.invertInterval n w r.1, r.2)
  else
    let rs := g.regs.map (prbs (s.pgPoly n) l)
    (s.invertInterval n w (packBits 256 (rs.flatMap (·.1))), { g with regs := rs.map (·.2) })

/-! ### Causes -/

/-- An open context takes a cause of R324. -/
def takeCause (n c cause : Nat) (s : State) : State := s.modCtx n c (fun x => { x with win := x.win.take cause })

/-- Every open context of pair `n` takes a cause. -/
def takeAll (n cause : Nat) (s : State) : State := each (s.openCtxs n) (fun c s => takeCause n c cause s) s

/-- Banks that are FORMING take a cause that concerns their bits (R317). -/
def takeForming (n cause : Nat) (s : State) : State :=
  each ctxs (fun c s => s.modCtx n c (fun x =>
    { x with bank0 := if x.forming.getLsbD 0 then x.bank0.take cause else x.bank0,
             bank1 := if x.forming.getLsbD 1 then x.bank1.take cause else x.bank1 })) s

/-- A pair mismatch (R299, R300): pair_check is raised; the open contexts take "pair integrity". While the pair's generator is
the stimulus of a fan-out group, it is a fault of every slot of it (R171). -/
def pairMismatch (n : Nat) (s : State) : State :=
  let s := raise (srcPath n 3) (takeAll n 7 s)
  if (s.pathAt n).stim && (s.pathAt n).stimGen then stimSafe n (srcPath n 3) s else s

/-- An expected underrun of pair `n` (R272, R293, R324). -/
def expUnderrun (n : Nat) (s : State) : State :=
  raiseSpool n 0 ((takeAll n 9 s).modPair n (fun p => { p with starved := true }))

/-! ### Expected data -/

/-- Read records of stream `k` until `need` bytes are buffered (R304): the buffer, whether it suffices, whether poison was
read. -/
def readBytes : Nat → Nat → Nat → List Byte → Bool → State → List Byte × Bool × Bool × State
  | 0, _, need, buf, p, s => (buf, decide (need ≤ buf.length), p, s)
  | f + 1, k, need, buf, p, s =>
    if need ≤ buf.length then (buf, true, p, s) else
    match needRec k s with
    | (none, s) => (buf, false, p, s)
    | (some r, s) => readBytes f k need (buf ++ (if r.kind = 9 then [] else r.payload)) (p || r.poison) s

/-- Have `need` expected bytes, and mask bytes where they are read, in the buffers of pair `n` (R304); false on an
underrun. Poison takes effect as R324 cause 6 with spool_path (R293). -/
def ensureBytes (n need : Nat) (s : State) : Bool × State :=
  let p := s.pairAt n
  match s.vrdSource n with
  | 0 =>
    let (buf, ok, bad, s) := readBytes (need + 64) (s.expStream n) need p.expBuf false s
    let (mb, mok, mbad, s) :=
      if s.vrdMaskEn n then readBytes (need + 64) (s.mskStream n) need p.mskBuf false s else (p.mskBuf, true, false, s)
    let s := s.modPair n (fun p => { p with expBuf := buf, mskBuf := mb })
    let s := if bad || mbad then raiseSpool n 2 (takeAll n 6 s) else s
    if ok && mok then (true, s) else (false, expUnderrun n s)
  | 1 =>
    let w := s.dpWidth (s.pathD n)
    let m := (need - p.expBuf.length + 255) / 256
    let r := (List.range m).foldl (fun (a : List Byte × Gen) _ =>
      let q := s.genInterval n w a.2
      (a.1 ++ q.1, q.2)) (p.expBuf, p.gen)
    (true, s.modPair n (fun p => { p with expBuf := r.1, gen := r.2 }))
  | _ => (decide (need ≤ p.expBuf.length), s)

/-- Bit `p` of a byte sequence, most significant bit of each byte first. -/
def bitAt (bs : List Byte) (p : Nat) : Bool := (bs.getD (p / 8) 0).getLsbD (7 - p % 8)

/-- Expected bit `i` of lane `k` from the buffer (R304). -/
def PairSt.expBit (p : PairSt) (w k i : Nat) : Bool :=
  let l := intervalBits w
  bitAt p.expBuf (2048 * (i / l - p.expBase) + k * l + i % l)

/-- Mask bit `i` of lane `k`; 1 means don't care (R304). -/
def PairSt.mskBit (p : PairSt) (w k i : Nat) : Bool :=
  let l := intervalBits w
  bitAt p.mskBuf (2048 * (i / l - p.expBase) + k * l + i % l)

/-! ### Results -/

/-- Bits left-aligned in 64, as a first-fail record shows the aligned 64 bits (R319). -/
def shl1 (v pos : Nat) (b : Bool) : Nat := if b then v ||| 2 ^ (63 - pos) else v

/-- A compared unit enters a lane's counts and histogram bin (R318, R320). -/
def LaneRes.count (r : LaneRes) (bits errs bin : Nat) : LaneRes :=
  let h := r.hist.get 0 bin
  let h' := satAdd (2 ^ 32 - 1) h errs
  { r with cmp := satAdd max48 r.cmp bits, err := satAdd max48 r.err errs,
           hist := if errs = 0 then r.hist else r.hist.set 0 bin h', histSat := r.histSat || decide (2 ^ 32 - 1 ≤ h + errs) }

/-- A lane's first fail is recorded, or its 64 bits are brought up to date (R319). -/
def LaneRes.fail (r : LaneRes) (isErr : Bool) (t : BitVec 64) (idx : Nat) (blk : Nat) (e v m : Nat) : LaneRes :=
  match r.ff with
  | none => if isErr then { r with ff := some (t, BitVec.ofNat 64 idx, BitVec.ofNat 64 e, BitVec.ofNat 64 v, BitVec.ofNat 64 m) } else r
  | some f =>
    if f.2.1.toNat / 64 = blk then
      { r with ff := some (f.1, f.2.1, BitVec.ofNat 64 e, BitVec.ofNat 64 v, BitVec.ofNat 64 m) } else r

/-- The FIRST_FAIL message of a context (R326). -/
def State.firstFailMsg (s : State) (n c : Nat) : List Byte :=
  let w := (s.ctxAt n c).win
  let l := w.ffLane.getD 0
  let t := ((w.lane.get {} l).ff.map (·.1)).getD 0
  bytesOf 1 2 ++ bytesOf 1 (n + 32 * c) ++ bytesOf 2 w.label.toNat ++ bytesOf 4 0 ++ bytesOf 8 w.openT.toNat
    ++ List.replicate 32 0 ++ bytesOf 8 t.toNat ++ bytesOf 1 (128 + l)

/-- Send a message of pair `n` on its path's I port (R326, R329): a Guard- or Drive-family path has the link that carries it, now
or when it carries flits again, and so has a path that leaves these modes while its link still runs. -/
def sendVerdict (n : Nat) (msg : List Byte) (s : State) : State :=
  if (s.pathAt n).mode.family || (s.portAt (s.pathI n)).up then s.sendCtrl n 7 (fit 256 0 msg) else s

/-- A lane of a context has failed: the context-level first fail, its trigger and FIRST_FAIL (R319, R267, R326). -/
def ctxFail (n c lane : Nat) (s : State) : State :=
  let w := (s.ctxAt n c).win
  match w.ffLane with
  | none =>
    let s := s.modCtx n c (fun x => { x with win := { x.win with ffLane := some lane } })
    let s := trigger n 1 s
    if s.ctxNotify n c then sendVerdict n (s.firstFailMsg n c) s else s
  | some l =>
    let time (k : Nat) := (w.lane.get {} k).ff.map (·.1)
    if lane < l ∧ time lane = time l then s.modCtx n c (fun x => { x with win := { x.win with ffLane := some lane } }) else s

/-- The lanes that context `c` of pair `n` covers (R302, R314). -/
def State.covers (s : State) (n c lane : Nat) : Bool :=
  Nat.testBit (s.ctxMask n c) lane && decide (lane < s.dpWidth (s.pathD n))

/-! ### The fail bitmap -/

/-- Lanes of a mask in ascending order. -/
def laneList (m : Nat) : List Nat := (List.range 16).filter (fun k => Nat.testBit m k)

/-- The fail-bitmap stream of path `n`: its enabled stream of role 1 (R244). -/
def State.mapStream (s : State) (n : Nat) : Option Nat :=
  (List.range 1024).find? (fun k => s.stEn k && s.stRole k == 1 && s.stPath k == n)

/-- The payload of a FAILMAP record (R323). -/
def State.mapPayload (s : State) (n c : Nat) : List Byte :=
  let x := s.ctxAt n c
  let ls := laneList (s.ctxMask n c)
  let bits := x.mapBits.flatMap (fun b => ls.map (fun k => b.getLsbD k))
  bytesOf 1 c ++ bytesOf 1 (s.ctxGran n c) ++ bytesOf 2 (s.ctxMask n c) ++ bytesOf 8 x.mapFirst ++ bytesOf 2 x.mapBits.length
    ++ bytesOf 2 0 ++ packBits ((bits.length + 7) / 8) bits

/-- Seal the FAILMAP record in progress of a context (R323). The next record begins with the block of the window's next bit: a
block that seal_us cuts is the last of one record and the first of the next (log entry 151, DESIGN CHOICE). -/
def sealMap (n c : Nat) (s : State) : State :=
  let x := s.ctxAt n c
  let pl := s.mapPayload n c
  let s := s.modCtx n c (fun x => { x with mapFirst := x.seen / 2 ^ s.ctxGran n c, mapBits := [], mapRec := none })
  match x.mapRec, s.mapStream n with
  | some r, some k => s.modStrm k (fun y => ({ y with mapping := y.mapping - 1 }).stage s.now { r with payload := pl })
  | _, _ => s

/-- The bit map of a context reaches line bit `seen` (R323): a new block, with its record's admission at its first byte. -/
def mapReach (n c : Nat) (s : State) : State :=
  let x := s.ctxAt n c
  let b := x.seen / 2 ^ s.ctxGran n c
  let cap := 31872 / max 1 (laneList (s.ctxMask n c)).length
  if x.mapFirst + x.mapBits.length = b + 1 then s else
  let s := if cap ≤ x.mapBits.length then sealMap n c s else s
  let first := (s.ctxAt n c).mapBits.isEmpty
  let s := s.modCtx n c (fun x => { x with mapBits := x.mapBits ++ [0] })
  if !first then s else
  match s.mapStream n with
  | none => s
  | some k =>
    if !((s.strmAt k).isOpen || (s.strmAt k).armed) then s else
    match openRec k 3 s.stamp 0 0 (BitVec.ofNat 16 (s.ctxMask n c)) (s.ctxAt n c).win.label.toNat s with
    | (none, s) => s
    | (some r, s) => (s.modCtx n c (fun x => { x with mapRec := some r })).modStrm k (fun y => { y with mapping := y.mapping + 1 })

/-- An error of a lane sets its bit in the present block (R323): in protocol compare the block of the last line bit received with
the unit (log entry 151, DESIGN CHOICE). -/
def mapErr (n c lane : Nat) (s : State) : State :=
  s.modCtx n c (fun x => { x with mapBits := match x.mapBits.reverse with
    | [] => []
    | b :: t => (t.reverse) ++ [b ||| BitVec.ofNat 16 (2 ^ lane)] })

/-! ### Line compare -/

/-- Received bit `j` of a lane enters the lane's aligned 64 bits of expected, received and mask data (R319). -/
def alignBit (n lane j : Nat) (rcv exp msk : Bool) (s : State) : State :=
  s.modPair n (fun p =>
    let b := if j % 64 = 0 then (0, 0, 0) else p.blk.get (0, 0, 0) lane
    { p with blk := p.blk.set (0, 0, 0) lane
               (shl1 b.1 (j % 64) exp, shl1 b.2.1 (j % 64) rcv, shl1 b.2.2 (j % 64) msk) })

/-- A line bit of a lane is compared in every open context that covers it (R302, R318-R320). -/
def compareBit (n lane j i : Nat) (rcv exp msk : Bool) (s : State) : State :=
  let s := alignBit n lane j rcv exp msk s
  let b := (s.pairAt n).blk.get (0, 0, 0) lane
  let err := !msk && (rcv != exp)
  let t := s.vtime
  each ((s.openCtxs n).filter (fun c => s.covers n c lane)) (fun c s =>
    let per := 2 ^ s.ctxHist n c
    let s := s.modCtx n c (fun x =>
      let r := x.win.lane.get {} lane
      let r := if msk then r else r.count 1 (if err then 1 else 0) ((i % per) * 64 / per)
      { x with win := { x.win with lane := x.win.lane.set {} lane (r.fail err t j (j / 64) b.1 b.2.1 b.2.2) } })
    if err then
      let s := if s.ctxMap n c then mapErr n c lane s else s
      ctxFail n c lane s
    else s) s

/-- The search of R310 over the 64 received bits held from search_max on. -/
def State.searchDelta (s : State) (n : Nat) : Option Nat :=
  let p := s.pairAt n
  let w := s.dpWidth (s.pathD n)
  let lo := s.searchMin n
  let hi := s.searchMax n
  ((List.range (hi + 1 - lo)).map (lo + ·)).find? (fun d =>
    decide (((p.hold.zip (List.range 64)).filter (fun x =>
      x.1 != p.expBit w (s.syncLane n) (hi + x.2 - d))).length ≤ s.syncErr n))

/-- Self-synchronisation of a lane takes received bit `rcv` (R306): what it is compared with, if it is, and the state. A lane that
lost its lock has 16 attempts anew, and counts its expected bits from the new seed on (log entry 151, DEDUCED). -/
def State.syncStep (s : State) (n lane : Nat) (rcv : Bool) : Option (Bool × Nat) × SyncSt × Option Nat :=
  let y := (s.pairAt n).sync.get {} lane
  let poly := s.pgPoly n
  let d := polyDegree poly
  let inv := s.pgInv n lane
  match y.phase with
  | 0 =>
    let reg := (rcv != inv) :: y.reg
    (none, if reg.length < d then { y with reg := reg } else { y with phase := 1, bits := 0, errs := 0, idx := 0, reg := reg }, none)
  | 3 => (none, y, none)
  | ph =>
    let b := prbsBit poly y.reg
    let errs := y.errs + (if (b != inv) != rcv then 1 else 0)
    let y' := { y with reg := (b :: y.reg).take 64, bits := y.bits + 1, errs := errs, idx := y.idx + 1 }
    if ph = 1 then
      if y.bits + 1 < 4096 then (none, y', none)
      else if errs ≤ 64 then (none, { y' with phase := 2, bits := 0, errs := 0 }, none)
      else if 16 ≤ y.tries + 1 then (none, { y' with phase := 3 }, some 10)
      else (none, { y' with phase := 0, tries := y.tries + 1, reg := [] }, none)
    else if 1024 < errs then (some (b != inv, y.idx), { y' with phase := 0, tries := 0, reg := [] }, some 11)
    else (some (b != inv, y.idx), if y.bits + 1 < 4096 then y' else { y' with bits := 0, errs := 0 }, none)

/-- One line-bit time of pair `n` (R302-R310, R323): `rx` holds the received bit of each lane; in protocol compare the bit only
takes its place in the fail bitmaps. -/
def bitTime (n : Nat) (rx : List Bool) (s : State) : State :=
  let p := s.pairAt n
  let w := s.dpWidth (s.pathD n)
  let l := max 1 (intervalBits w)
  let j := p.rxBits
  let lanes := rx.zip (List.range rx.length)
  let s := each ((s.openCtxs n).filter (fun c => s.ctxMap n c)) (fun c s => mapReach n c s) s
  let s :=
    if !p.run || p.starved || s.vrdProto n then s
    else if s.alignMode n = 2 then
      lanes.foldl (fun s x =>
        let (cmp, y, cause) := s.syncStep n x.2 x.1
        let s := s.modPair n (fun p => { p with sync := p.sync.set {} x.2 y })
        let s := match cmp with
          | some (e, i) => compareBit n x.2 j i x.1 e false s
          | none => alignBit n x.2 j x.1 false true s
        match cause with
        | some c => takeAll n c s
        | none => s) s
    else
      let s :=
        if s.alignMode n = 1 ∧ p.delta.isNone ∧ s.searchMax n ≤ j then
          let s := s.modPair n (fun p => { p with hold := p.hold ++ [rx.getD (s.syncLane n) false] })
          if (s.pairAt n).hold.length < 64 then s else
          match ensureBytes n (256 * ((s.searchMax n + 63 - s.searchMin n) / l + 1)) s with
          | (false, s) => s
          | (true, s) =>
            match s.searchDelta n with
            | some d => s.modPair n (fun p => { p with delta := some d, hold := [] })
            | none => (takeAll n 10 s).modPair n (fun p => { p with starved := true, hold := [] })
        else s
      match p.delta with
      | none => s
      | some d =>
        if j < d then s else
        let i := j - d
        let base := (s.pairAt n).expBase
        -- intervals that the comparison has left are dropped
        let gone := if s.vrdSource n = 2 then 0 else i / l - base
        let s := s.modPair n (fun p => { p with expBuf := p.expBuf.drop (256 * gone), mskBuf := p.mskBuf.drop (256 * gone),
                                                expBase := base + gone })
        match ensureBytes n (256 * (i / l - (base + gone) + 1)) s with
        | (false, s) => s
        | (true, s) =>
          lanes.foldl (fun s x =>
            let p := s.pairAt n
            compareBit n x.2 j i x.1 (p.expBit w x.2 i) (s.vrdMaskEn n && s.vrdSource n == 0 && p.mskBit w x.2 i) s) s
  let s := s.modPair n (fun p => { p with rxBits := if p.run then p.rxBits + 1 else p.rxBits })
  each (s.openCtxs n) (fun c s => s.modCtx n c (fun x => { x with seen := x.seen + 1 })) s

/-- Received line bits of each lane, bit time after bit time. -/
def bitTimes (n : Nat) : Nat → List (List Bool) → State → State
  | 0, _, s => s
  | m + 1, bits, s => bitTimes n m (bits.map (·.tail)) (bitTime n (bits.map (fun b => b.headD false)) s)

/-! ### Metrics -/

/-- One partial sum of at most 64 symbols of a lane in a context (R321, R322). -/
def partialSum (n c lane : Nat) (syms : List (Nat × Nat)) (s : State) : State :=
  let m := s.ctxMetric n c
  if m = 0 then s else
  let e (x : Nat × Nat) := min 127 x.1
  let g (x : Nat × Nat) := min 127 x.2
  let a0 := syms.foldl (fun a x => a + if m = 1 then e x else g x) 0
  let a1 := syms.foldl (fun a x => a + if m = 1 then e x * e x else if g x < s.ctxMargin n c then 1 else 0) 0
  let r := ((s.ctxAt n c).win.lane.get {} lane)
  let put (r : LaneRes) (s : State) : State :=
    s.modCtx n c (fun x => { x with win := { x.win with lane := x.win.lane.set {} lane r } })
  if r.sat then put { r with unsummed := satAdd max48 r.unsummed syms.length } s
  else if 2 ^ 64 ≤ r.acc0 + a0 ∨ 2 ^ 64 ≤ r.acc1 + a1 then
    let s := put { r with sat := true, unsummed := satAdd max48 r.unsummed syms.length } s
    let s := (takeCause n c 8 s).modPair n (fun p => { p with satCtx := p.satCtx ||| BitVec.ofNat 4 (2 ^ c) })
    raise (srcGlobal 18) s
  else put { r with acc0 := r.acc0 + a0, acc1 := r.acc1 + a1, summed := satAdd max48 r.summed syms.length } s

/-- The samples of a lane in partial sums of up to 64 symbols (R322). -/
def sumSamples (n c lane : Nat) : Nat → List (Nat × Nat) → State → State
  | 0, _, s => s
  | f + 1, xs, s => if xs.isEmpty then s else sumSamples n c lane f (xs.drop 64) (partialSum n c lane (xs.take 64) s)

/-- The samples of every covered lane enter every open context (R321). -/
def metrics (n : Nat) (samples : List (List (Nat × Nat))) (s : State) : State :=
  each (s.openCtxs n) (fun c s =>
    (samples.zip (List.range samples.length)).foldl (fun s x =>
      if s.covers n c x.2 then sumSamples n c x.2 (x.1.length + 1) x.1 s else s) s) s

/-! ### Protocol compare -/

/-- Bytes of a compare rule (R311, R547). -/
def State.ruleBytes (s : State) (n r lo : Nat) : List Byte :=
  (List.range 4).flatMap (fun w => bytesOf 4 (s.reg (aVrd n + 0x100 + 0x40 * r + lo + 4 * (3 - w))).toNat)

/-- A unit's first 16 bytes equal a value in every bit where the mask is 1 (R270, R311); a shorter unit matches nothing (log entry
151, DESIGN CHOICE). -/
def unitMatches (value mask unit : List Byte) : Bool :=
  decide (16 ≤ unit.length) && ((List.range 16).all (fun b =>
    (unit.getD b 0 &&& mask.getD b 0) == (value.getD b 0 &&& mask.getD b 0)))

/-- The lowest-numbered enabled rule that a unit matches (R312). -/
def State.unitRule (s : State) (n : Nat) (u : DecUnit) : Option Nat :=
  (List.range 8).find? (fun r => s.bit (aVrd n + 0x100 + 0x40 * r) 31
    && unitMatches (s.ruleBytes n r 0x10) (s.ruleBytes n r 0x20) u.bytes)

/-- How many bits are set in a byte. -/
def popByte (b : Byte) : Nat := ((List.range 8).filter (fun i => b.getLsbD i)).length

/-- Compare one unit of pair `n` (R311, R312, R318-R320). -/
def compareUnit (n : Nat) (u : DecUnit) (s : State) : State :=
  let bump (s : State) : State := each (s.openCtxs n) (fun c s => s.modCtx n c (fun x => { x with units := x.units + 1 })) s
  match s.unitRule n u with
  | none => bump s
  | some r =>
    let cfg := aVrd n + 0x100 + 0x40 * r
    let off := s.bits cfg 11 0
    let len := s.bits cfg 24 12
    let const := s.bit cfg 30
    let s' : Bool × State := if const then (true, s) else ensureBytes n len s
    if !s'.1 then bump s'.2 else
    let s := s'.2
    let p := s.pairAt n
    let cb := s.ruleBytes n r 0x30
    let exp (b : Nat) : Byte := if const then cb.getD (b % 16) 0 else p.expBuf.getD b 0
    let msk (b : Nat) : Byte := if const || !s.vrdMaskEn n then 0 else p.mskBuf.getD b 0
    let t := s.vtime
    let word (f : Nat → Byte) (b : Nat) : Nat := ofBytes ((List.range 8).map (fun q => f (8 * (b / 8) + q)))
    let rcv (b : Nat) : Byte := u.bytes.getD (off + b) 0
    let s := each (s.openCtxs n) (fun c s =>
      let low := (laneList (s.ctxMask n c)).headD 0
      let idx (b : Nat) := (s.ctxAt n c).units * 2 ^ 32 + b
      (List.range len).foldl (fun s b =>
        let missing := decide (u.bytes.length ≤ off + b)
        let lane := if missing then low else ((u.lanes.getD (off + b) 0).val)
        if !s.covers n c lane then s else
        let errs := if missing then 8 else popByte ((rcv b ^^^ exp b) &&& ~~~(msk b))
        let bits := if missing then 8 else 8 - popByte (msk b)
        let i := idx b
        let s := s.modCtx n c (fun x =>
          let y := (x.win.lane.get {} lane).count bits errs (b * 64 / max 1 len)
          let y := if y.ff.isNone ∧ 0 < errs then
            { y with ff := some (t, BitVec.ofNat 64 i, BitVec.ofNat 64 (word exp b), BitVec.ofNat 64 (word rcv b),
                                 BitVec.ofNat 64 (word msk b)) } else y
          { x with win := { x.win with lane := x.win.lane.set {} lane y } })
        if 0 < errs then ctxFail n c lane (if s.ctxMap n c then mapErr n c lane s else s) else s) s) s
    let s := if const then s else
      s.modPair n (fun p => { p with expBuf := p.expBuf.drop len, mskBuf := p.mskBuf.drop len })
    bump s

/-! ### What the pair receives -/

/-- D→I data reaches pair `n` (R302, R313, R321). -/
def pairReceive (n : Nat) (rx : DRx) (s : State) : State :=
  if !((s.pathAt n).dataMode.compares) then s else
  let s := if rx.poison then takeAll n 6 s else s
  let s := each (s.openCtxs n) (fun c s => s.modCtx n c (fun x =>
    { x with win := { x.win with fec := satAdd (2 ^ 32 - 1) x.win.fec rx.fec, crc := satAdd (2 ^ 32 - 1) x.win.crc rx.crcFail } })) s
  let s := bitTimes n ((rx.bits.map List.length).foldl max 0) rx.bits (metrics n rx.samples s)
  let p := s.pairAt n
  if !s.vrdProto n || !p.run || p.starved then s
  else rx.units.foldl (fun s u => if (s.pairAt n).starved then s else compareUnit n u s) s

/-- Header-match rules of path `n` on a decoded unit (R270); `dir` is 0 for I→D, 1 for D→I. -/
def headerMatch (n dir : Nat) (u : DecUnit) (s : State) : State :=
  let fam := s.dpFamily (s.pathD n)
  if !((s.pathAt n).mode.guardFam && fam == 0) then s else
  (List.range 4).foldl (fun s r =>
    let a := 0x530040 + 0x100 * n + 0x30 * r
    let by16 (lo : Nat) : List Byte := (List.range 4).flatMap (fun w => bytesOf 4 (s.reg (a + lo + 4 * (3 - w))).toNat)
    if s.bit a 0 && s.bit a (1 + dir) && unitMatches (by16 0x14) (by16 0x4) u.bytes then
      let s := s.modPath n (fun p => { p with hits := p.hits.set r (satAdd (2 ^ 32 - 1) (p.hits.getD r 0) 1) })
      trigger n (2 + r) s
    else s) s

/-! ### Opening, closing, forming -/

/-- A source start of pair `n` (R309). -/
def sourceStart (n : Nat) (s : State) : State :=
  let w := s.dpWidth (s.pathD n)
  let s := s.modPair n (fun p => { p with
    run := true, starved := false, rxBits := 0, expBuf := [], mskBuf := [], expBase := 0, hold := [], sync := {}, blk := {},
    gen := s.genStart n w,
    delta := if s.alignMode n = 0 then some (s.delayBits n) else none })
  if s.vrdSource n = 0 then
    let k := s.expStream n
    let q := s.expectSeq n
    let s := if q = 0 then s else s.modStrm k (fun x => { x with readSeq := q - 1 })
    let s := startRead k s
    if s.vrdMaskEn n then
      let m := s.mskStream n
      startRead m (if q = 0 then s else s.modStrm m (fun x => { x with readSeq := q - 1 }))
    else s
  else s

/-- The WINDOW entry (R413). -/
def windowEntry (o : Origin) (n c label b : Nat) : LogReq :=
  { kind := 0x14, origin := o, target := n + 32 * c, a := label, b := b }

/-- WINDOW_OPEN takes effect (R316). -/
def openWindow (n c : Nat) (label : BitVec 16) (late : Bool) (s : State) : State :=
  if (s.ctxAt n c).isOpen then s.modCtx n c (fun x => { x with ignored := satAdd 65535 x.ignored 1 }) else
  let s := if (s.openCtxs n).isEmpty then sourceStart n s else s
  let t := s.vtime ||| (if late then 0x4000000000000000#64 else 0#64)
  let w : WinSt := { label := label, openT := t }
  let w := if late then w.take 1 else w
  let w := if (s.pathAt n).safe then w.take 4 else w
  (s.modCtx n c (fun x => { x with isOpen := true, win := w, seen := 0, units := 0, mapFirst := 0, mapBits := [],
                                   mapRec := none, waiting := none })).stamped

/-- Errors, compared bits and failing lanes of a window (R318). -/
def WinSt.totalErr (w : WinSt) : Nat := min max48 (w.lane.entries.foldl (fun a e => a + e.2.err) 0)
def WinSt.totalCmp (w : WinSt) : Nat := min max48 (w.lane.entries.foldl (fun a e => a + e.2.cmp) 0)
def WinSt.laneFail (w : WinSt) : Nat := w.lane.entries.foldl (fun a e => if 0 < e.2.err then a ||| 2 ^ e.1 else a) 0

/-- The source of pair `n` stops (R309). -/
def sourceStop (n : Nat) (s : State) : State :=
  let s := if s.vrdSource n = 0 then
      let s := stopRead (s.expStream n) s
      if s.vrdMaskEn n then stopRead (s.mskStream n) s else s
    else s
  s.modPair n (fun p => { p with run := false })

/-- Freeze the window of an open context into a bank that is not FORMING (R316, R317); none when both are. -/
def freezeWindow (n c : Nat) (late : Bool) (s : State) : Option State :=
  let x := s.ctxAt n c
  let b := if x.forming.getLsbD x.nextBank then 1 - x.nextBank else x.nextBank
  if x.forming.getLsbD b then none else
  let s := if x.mapBits.isEmpty then s else sealMap n c s
  let w := (s.ctxAt n c).win
  let w := if late then w.take 1 else w
  let w := if w.totalCmp = 0 then w.take 12 else w
  let w := { w with limits := (s.failLimit n c, s.fecLimit n c, s.crcLimit n c), closeT := s.vtime ||| (if late then 0x4000000000000000#64 else 0#64) }
  let s := s.modCtx n c (fun x =>
    { x with isOpen := false, waiting := none, nextBank := 1 - b, forming := x.forming ||| BitVec.ofNat 2 (2 ^ b),
             bank0 := if b = 0 then w else x.bank0, bank1 := if b = 1 then w else x.bank1,
             closedAt := if b = 0 then (s.now, x.closedAt.2) else (x.closedAt.1, s.now) })
  let s := s.stamped
  some (if (s.openCtxs n).isEmpty then sourceStop n s else s)

/-- Close the window of an open context (R316); it waits for a bank when both are FORMING (R317). -/
def closeWindow (n c : Nat) (late : Bool) (s : State) : State :=
  match freezeWindow n c late s with
  | some s => s
  | none => s.modCtx n c (fun x => { x with waiting := x.waiting <|> some (s.now, late) })

/-- The verdict of a window (R325): 0 Pass, 1 Fail, 2 Indeterminate, by the limits in force at its close (R328). -/
def WinSt.verdictOf (w : WinSt) : Nat :=
  if w.causes ≠ 0 then 2
  else if w.limits.1 < w.totalErr then 1
  else if w.limits.2.1 ≠ 2 ^ 32 - 1 ∧ w.limits.2.1 < w.fec then 1
  else if w.limits.2.2 ≠ 2 ^ 32 - 1 ∧ w.limits.2.2 < w.crc then 1
  else 0

/-- The first 160 bytes of a RESULT message (R326). -/
def resultMsg (n c : Nat) (w : WinSt) : List Byte :=
  let ff := w.ffLane.bind (fun l => (w.lane.get {} l).ff.map (fun f => (l, f.1)))
  let any (f : LaneRes → Bool) : Nat := if w.lane.entries.any (fun e => f e.2) then 1 else 0
  bytesOf 1 1 ++ bytesOf 1 (n + 32 * c) ++ bytesOf 2 w.label.toNat ++ bytesOf 1 w.verdict ++ bytesOf 1 w.cause
    ++ bytesOf 2 w.causes.toNat ++ bytesOf 8 w.openT.toNat ++ bytesOf 8 w.closeT.toNat ++ bytesOf 8 w.totalErr
    ++ bytesOf 8 w.totalCmp ++ bytesOf 4 w.fec ++ bytesOf 4 w.crc
    ++ bytesOf 8 (match ff with | none => 2 ^ 64 - 1 | some f => f.2.toNat)
    ++ bytesOf 1 (match ff with | none => 0 | some f => 128 + f.1)
    ++ bytesOf 1 (any (·.sat) + 2 * any (fun r => r.err == max48) + 4 * any (·.histSat) + 8 * any (fun r => r.cmp == max48))
    ++ bytesOf 2 w.laneFail ++ List.replicate 4 0
    ++ (List.range 16).flatMap (fun k => bytesOf 6 (w.lane.get {} k).err)

/-- The VERDICT entry (R413). -/
def verdictEntry (n c : Nat) (w : WinSt) : LogReq :=
  let e := w.totalErr
  let m := w.totalCmp
  { kind := 0x15, origin := .hardware, target := n + 32 * c, a := w.label.toNat + w.verdict * 2 ^ 16 + w.cause * 2 ^ 18,
    b := w.causes.toNat,
    conts := [(e / 2 ^ 16, e % 2 ^ 16 * 2 ^ 16 + m / 2 ^ 32, m % 2 ^ 32), (w.fec, w.crc, 0)] }

/-- Form the verdict of bank `b` (R317, R325, R326). -/
def formVerdict (n c b : Nat) (s : State) : State :=
  let x := s.ctxAt n c
  let w := if b = 0 then x.bank0 else x.bank1
  let w := { w with verdict := w.verdictOf }
  let s := s.modCtx n c (fun x =>
    { x with forming := x.forming &&& ~~~BitVec.ofNat 2 (2 ^ b), newest := some b,
             bank0 := if b = 0 then w else x.bank0, bank1 := if b = 1 then w else x.bank1 })
  let s := sendVerdict n (resultMsg n c w) s
  s.logEvent (verdictEntry n c w)

/-- The result of a WINDOW_CLOSE on an IDLE context (R316): both its times are the instant of the close (log entry 151, DESIGN
CHOICE). -/
def notOpen (n c : Nat) (s : State) : State :=
  let t := s.vtime
  let w : WinSt := { verdict := 2, cause := 13, causes := BitVec.ofNat 16 (2 ^ 13), openT := t, closeT := t }
  (sendVerdict n (resultMsg n c w) s).logEvent (verdictEntry n c w)

/-- A window action whose turn has come (R62, R316): its entry, then its effect; it waits on while a close waits for a bank. -/
def runWinAct (n c : Nat) (s : State) (w : WinAct) : State :=
  let x := s.ctxAt n c
  if x.waiting.isSome then s.modCtx n c (fun x => { x with behind := x.behind ++ [w] })
  else if w.opens then
    withEntry (windowEntry w.origin n c w.label.toNat (if x.isOpen then 2 else 1)) (openWindow n c w.label w.late) s
  else if x.isOpen then closeWindow n c (w.late || decide (w.fired + 64 * ns < s.now)) s
  else withEntry (windowEntry w.origin n c 0 3) (notOpen n c) s

/-- A waiting close takes place when a bank is free (R317), and then the actions that fired behind it (R62). -/
def closeWaiting (n c : Nat) (s : State) : State :=
  match (s.ctxAt n c).waiting with
  | none => s
  | some (at0, late) =>
    match freezeWindow n c (late || decide (at0 + 64 * ns < s.now)) s with
    | none => s
    | some s =>
      let l := (s.ctxAt n c).behind
      l.foldl (runWinAct n c) (s.modCtx n c (fun x => { x with behind := [] }))

/-- Every open window of pair `n` ends now with a cause (R180, R329). -/
def endWindows (n cause : Nat) (s : State) : State := each (s.openCtxs n) (fun c s => closeWindow n c false (takeCause n c cause s)) s

/-! ### Stimulus -/

/-- Stimulus of path `n` starts (R22, R23, R58), at every site that is not in its safe state: from the generator or the replay
stream. -/
def startStim (n : Nat) (gen : Bool) (s : State) : State :=
  let s := s.modPath n (fun p => { p with stim := true, stimGen := gen, stimPos := 0, stimBuf := [],
                                          stimSrc := s.genStart n (s.dpWidth (s.pathD n)) })
  let s := each (s.group n) (fun m s => s.modPath m (fun p => if p.safe then p else { p with dOut := 1 })) s
  if gen then s else startRead (s.repStream n) s

/-- Stimulus of path `n` ends and the D lanes send the fill pattern (R58). -/
def stopStim (n : Nat) (s : State) : State :=
  if !(s.pathAt n).stim then s else
  let s := if (s.pathAt n).stimGen then s else stopRead (s.repStream n) s
  let s := s.modPath n (fun p => { p with stim := false, stimBuf := [] })
  each (s.sites n) (fun m s => s.modPath m (fun p => { p with dOut := 2 })) s

end Sys2Proof.Machine
end

