-- ==== Sys2Proof/Machine/Transition.lean ====
section
/-! DEFINITION. Mode transitions and retrain changes (R176-R183, R406-R408), leaving the safe state (R364), and sources that
return to IDLE (R358, R359). -/

namespace Sys2Proof.Machine

/-! ### Pieces of a phase -/

/-- A phase without an entry. -/
def quietPhase (n : Nat) (ph : Phase) (s : State) : State := s.modPath n (·.toPhase ph)

/-- The transmitters of the D lanes of path `n` go to electrical idle (R177). -/
def idleD (n : Nat) (s : State) : State :=
  (each (s.dLanes n) (fun l s => s.modLane l (fun x => { x with txIdle := true })) s).modPath n (fun p =>
    { p with dTrain := 0, dOut := 0, segReady := false })

/-- The terminations of some lanes open (R176). -/
def openTerm (ls : List Nat) (s : State) : State := each ls (fun l s => s.modLtr l (fun x => { x with opened := true })) s

/-- The D side of path `n` goes dark: transmitters in electrical idle, terminations open (R176). -/
def darkD (n : Nat) (s : State) : State := openTerm (s.dLanes n) (idleD n s)

/-- The I side of path `n` goes dark (R176). -/
def darkI (n : Nat) (s : State) : State :=
  let s := each (s.iLanes n) (fun l s => s.modLane l (fun x =>
    { x with txIdle := true, anchor := .search, eligible := false, identOk := false })) s
  (linkEnd (s.pathI n) (openTerm (s.iLanes n) s)).modPath n (fun p => { p with iTrain := 0 })

/-- The tunnel of path `n` stops (R229, R363, R407): a run of D→I intervals that were not carried has ended (R215). -/
def stopTunnel (n : Nat) (s : State) : State :=
  let s := reportRun n { source := srcPath n 4, cls := (s.srcAt (srcPath n 4)).cls } s
  let s := s.modPath n (fun p => { p with timeline := none, packBits := [], packArr := [] })
  s.modLink (s.pathI n) (fun l => { l with tunnel := 0, tunMsg := none, tunRx := l.tunRx.set none 1 none, rxCount := 0 })

/-- DARK begins now (R176, R178): on the D side, or on both. -/
def enterDark (both : Bool) (n : Nat) (s : State) : State :=
  let s := darkD n (if both then darkI n s else s)
  let s := s.modPath n (fun p => { p with trans := p.trans.map (fun t => { t with darkAt := some s.now }) })
  quietPhase n .dark s

/-- The lanes of path `n` go Moored and the path is STEADY (R104, R177). -/
def moor (n : Nat) (s : State) : State :=
  let s := if s.pathLead n = n then linkEnd (s.pathI n) (stopTunnel n s) else s
  let s := each (s.dLanes n ++ s.ownI n) (fun l s => (laneTo .moored l s).modLtr l (fun t => { t with opened := false })) s
  let s := s.modPath n (fun p => { p with trans := none, dTrain := 0, iTrain := 0, dOut := 0, retrain := false })
  quietPhase n .steady s

/-- The members of the fan-out group that `n` leads, without `n` (R159). -/
def State.members (s : State) (n : Nat) : List Nat := if s.pathLead n = n then (s.group n).filter (· ≠ n) else []

/-- The member slots follow their lead (R159): Fan-out while it is in Fan-out, Moored otherwise. A member that joins sends
the fill pattern with fixed pre-emphasis; one that leaves goes Moored (R177). -/
def setMembers (n : Nat) (fan : Bool) (s : State) : State :=
  each (s.members n) (fun m s =>
    let old := (s.pathAt m).mode
    if fan then
      if old = .fanOut then s
      else startFill m (s.modPath m (fun p => { p with mode := .fanOut, phase := .steady }))
    else if old = .moored then s
    else
      let s := modeCapture m old .moored (endWindows m 2 s)
      let s := each (s.dLanes m) (fun l s => laneTo .moored l s) s
      s.modPath m (fun p => { p with mode := .moored, phase := .steady, dOut := 0, trans := none })) s

/-- The slots that take part in a change of path `n`: in Fan-out its whole group (R403, R407). -/
def State.slotsOf (s : State) (n : Nat) : List Nat := if (s.pathAt n).mode = .fanOut then n :: s.members n else [n]

/-! ### Transitions -/

/-- A change that takes down and retrains nothing (R177): within the Guard family, between Drive and Fan-out, or to the same
mode. -/
def Trans.light (old new : Mode) : Bool := (old.guardFam && new.guardFam) || (old.driveFam && new.driveFam) || old == new

/-- Both sides go dark in a change from `old` to `new` (R177): neither mode is Moored and one is Pass or Survey. -/
def Trans.darkBoth (old new : Mode) : Bool :=
  [old, new].any (fun m => m == .pass || m == .survey)

/-- Training in a running phase stops (R153, R182). -/
def stopTraining (n : Nat) (s : State) : State :=
  let p := s.pathAt n
  let s := s.modPath n (fun p => { p with iTrain := if p.iTrain = 1 then 0 else p.iTrain, dTrain := if p.dTrain = 1 then 0 else p.dTrain })
  if p.phase = .ladder ∧ s.pathLead n = n then linkEnd (s.pathI n) s else s

/-- The path's phase is one in which a MODE_SET abandons the running transition (R182). -/
def Phase.abandons (ph : Phase) : Bool := ph == .dark || ph == .wake || ph == .ladder || ph == .train

/-- WAKE of path `n` begins: its lanes leave Moored (R105, R177). Lanes that never were Moored are in Run at once. -/
def startWake (n : Nat) (s : State) : State :=
  let s := each (s.dLanes n ++ s.iLanes n) (fun l s => laneTo .run l s) s
  if (s.dLanes n ++ s.iLanes n).any (fun l => (s.laneAt l).exiting) then quietPhase n .wake s
  else bringUp .hardware 0 n (s.modPath n (fun p => { p with trans := none }))

/-- A transition of path `n` from `old` to its present mode begins its phase 1 now (R177, R180, R182). -/
def beginTransition (n : Nat) (old : Mode) (s : State) : State :=
  let new := (s.pathAt n).mode
  let ab := (s.pathAt n).phase.abandons
  let s := if ab then freshen n (stopTraining n s) else s
  let tr : Trans := { retrain := false, iSide := false, old := old, darkAt := none, fireAt := s.now }
  let s := setMembers n (new == .fanOut) s
  if new = .moored ∧ (ab ∨ !old.guardFam) then moor n s
  else
    let s := s.modPath n (fun p => { p with retrain := false, trans := some tr })
    if ab then
      let keep := (s.portAt (s.pathI n)).up && new.family
      enterDark (!keep) n s
    else if Trans.light old new then quietPhase n .steady (s.modPath n (fun p => { p with trans := none }))
    else if old = .moored then startWake n s
    else if old.guardFam then
      quietPhase n .drain (s.modPath n (fun p => { p with packBits := [], packArr := [] }))
    else enterDark (Trans.darkBoth old new) n s

/-- Why a MODE_SET of path `n` to `m` is refused (R181). A free slot has no allowed mode: the spec does not say what a MODE_SET
for it does, and the model refuses it with cause 1 (DESIGN CHOICE, notes/assumptions/156.md). -/
def State.modeRefusal (s : State) (n : Nat) (m : Mode) : Option Nat :=
  let p := s.pathAt n
  if !s.pathEn n || !Nat.testBit (s.pathModes n) m.code then some 1
  else if s.pathLead n ≠ n then some 2
  else if p.mode.driveFam && m.driveFam && p.mode != m && p.stim then some 3
  else if p.phase = .drain then some 4
  else none

/-- A MODE_SET that is not refused takes effect (R15, R30, R177, R180): the mode register changes at the fire instant, within the
Guard family the datapath follows at the path's next boundary; a path in its safe state begins the transition when it leaves
it, while the member slots that it leads follow its mode at once (R159). -/
def modeSet (n : Nat) (m : Mode) (s : State) : State :=
  let old := (s.pathAt n).mode
  let s := modeCapture n old m (endWindows n 2 s)
  let s := stopStim n s
  let light := old.guardFam && m.guardFam && (s.pathAt n).phase == .steady
  let s := s.modPath n (fun p => { p with mode := m, runs := if light then some (p.runs.getD old) else none })
  let s := if light then waitAct n .mode s else s
  if (s.pathAt n).safe then
    (setMembers n (m == .fanOut) s).modPath n (fun p => { p with pendMode := p.pendMode <|> some old, pendRetrain := none })
  else beginTransition n old s

/-- A retrain change of path `n` begins its phase 1 now (R407, R408). -/
def beginRetrain (iSide : Bool) (n : Nat) (s : State) : State :=
  let m := (s.pathAt n).mode
  let s := each (s.slotsOf n) (fun k s => modeCapture k m m (endWindows k 2 s)) s
  let s := stopStim n s
  let tr : Trans := { retrain := true, iSide := iSide, old := m, darkAt := none, fireAt := s.now }
  let s := s.modPath n (fun p => { p with retrain := true, trans := some tr })
  let s := if m.guardFam then
      quietPhase n .drain (s.modPath n (fun p => { p with packBits := [], packArr := [] }))
    else each (s.members n) darkD (enterDark (m == .pass || iSide) n s)
  s.logEvent (phaseEntry .hardware n m.code (s.pathAt n).phase.code 1)

/-- A staged write to a retrain field of path `n` at its switch (R406): in its safe state the change waits. -/
def startRetrain (iSide : Bool) (n : Nat) (s : State) : State :=
  let p := s.pathAt n
  if p.mode = .moored ∨ p.mode = .survey ∨ p.phase ≠ .steady then s
  else if p.safe then s.modPath n (fun p => { p with retrain := true, pendRetrain := some (iSide || p.pendRetrain == some true) })
  else beginRetrain iSide n s

/-- The unresolved D→I flits of path `n` are freed and reported with void set (R179, R238, R240). Such a report has no raising
and so no class of one: the model writes class 0 (DESIGN CHOICE, notes/assumptions/54.md). -/
def reportUnres (n src : Nat) (s : State) : State :=
  let l := (s.portAt (s.pathI n)).link
  match l.unres.head?, l.unres.getLast? with
  | some a, some b =>
    let s := s.modLink (s.pathI n) (fun l => { l with unres := [] })
    let s := s.sendFault n { source := src, cls := 0, dirToI := true, void := true, first := a.seq.toNat, last := b.seq.toNat }
    s.logEvent (reportEntry n 1 false a.seq.toNat b.seq.toNat a.interval)
  | _, _ => s

/-- The accepted I→D DATA flits of path `n` that were not played out are freed and reported (R31, R179). -/
def reportUnplayed (n src : Nat) (s : State) : State :=
  if ((s.portAt (s.pathI n)).link.cells.filter (fun c => c.typ = 1)).isEmpty then s
  else reportCells n { source := src, cls := 0 } s

/-- DRAIN of path `n` ends (R177, R179, R407): what is left of both directions is reported. -/
def drainEnd (n : Nat) (s : State) : State :=
  match (s.pathAt n).trans with
  | none => s
  | some tr =>
    let m := (s.pathAt n).mode
    let cause := if tr.retrain then 1 else 0
    let s := reportUnres n (srcGlobal 84) (numberWaiting (s.pathI n) (fun f => f.typ == 1) s)
    let s := stopTunnel n (reportUnplayed n (srcGlobal 84) s)
    let s := if tr.retrain then enterDark tr.iSide n s
      else if m = .moored ∨ m.driveFam then quietPhase n .dark (idleD n s)
      else enterDark (Trans.darkBoth tr.old m) n s
    s.logEvent (phaseEntry .hardware n m.code 2 cause)

/-- The device starts a tunnel and the D side of path `n` trains (R177, R235, R364). -/
def tunnelAndTrain (o : Origin) (cause n : Nat) (s : State) : State := setPhase o cause n .train (startD n (startTunnel n s))

/-- Phase 2 of a transition or of a retrain change (R177, R178, R182, R407). -/
def phase2 (n : Nat) (s : State) : State :=
  match (s.pathAt n).trans with
  | none => s
  | some tr =>
    let m := (s.pathAt n).mode
    let cause := if tr.retrain then 1 else 0
    let up := (s.portAt (s.pathI n)).up
    let s := (freshen n s).modPath n (fun p => { p with trans := none })
    match m with
    | .moored => (moor n s).logEvent (phaseEntry .hardware n 0 0 cause)
    | .survey | .pass => bringUp .hardware cause n s
    | .drive | .fanOut =>
      if up then setPhase .hardware cause n .steady (fillSites n tr.retrain (s.modPath n (fun p => { p with retrain := false })))
      else bringUp .hardware cause n s
    | _ => if up then tunnelAndTrain .hardware cause n s else bringUp .hardware cause n s

/-- The path reaches STEADY (R176, R408): what its transition held is complete. -/
def steady (cause n : Nat) (s : State) : State :=
  if (s.pathAt n).phase = .steady then s
  else setPhase .hardware cause n .steady (s.modPath n (fun p => { p with trans := none, retrain := false }))

/-! ### Leaving the safe state -/

/-- A path leaves its safe state (R364). -/
def leaveSafe (n : Nat) (s : State) : State :=
  let p := s.pathAt n
  let s := s.modPath n (fun p => { p with safe := false })
  let s := s.logEvent (phaseEntry .hardware n p.mode.code p.phase.code 3)
  let s := if s.pathLead n = n ∧ p.mode.family ∧ (s.portAt (s.pathI n)).up then meetNeed 19 (s.pathI n) s else s
  if (s.pathAt n).safe then s else
  let s := s.modPath n (fun p => { p with pendMode := none, pendRetrain := none })
  match p.pendMode with
  | some old =>
    let s := freshen n s
    if Trans.light old p.mode ∧ !p.phase.abandons then
      let s := setMembers n (p.mode == .fanOut) s
      if p.mode.guardFam then tunnelAndTrain .hardware 3 n s
      else if p.mode.driveFam then startFill n s
      else if p.mode = .pass then bringUp .hardware 3 n s
      else s
    else
      let s := beginTransition n old s
      s.logEvent (phaseEntry .hardware n p.mode.code (s.pathAt n).phase.code 0)
  | none =>
    match p.pendRetrain with
    | some i => beginRetrain i n s
    | none =>
      if p.ladStop ∨ p.upPend then bringUp .hardware 3 n s
      else if p.trans.isSome then s
      else match p.mode with
        | .moored => s
        | .survey => (transmit (s.dLanes n) s).modPath n (fun p => { p with dOut := 2 })
        | .pass => bringUp .hardware 3 n s
        | .drive | .fanOut => startFill n s
        | _ => if (s.portAt (s.pathI n)).up then tunnelAndTrain .hardware 3 n s else bringUp .hardware 3 n s

/-- Drop holding cause `h` from path `n`. The path leaves its safe state by the command SAFE_STATE_EXIT (R364). -/
def unhold (n : Nat) (h : Hold) (s : State) : State :=
  if (s.pathAt n).holds.contains h then s.modPath n (fun p => { p with holds := p.holds.filter (· ≠ h) }) else s

/-- A source returns to IDLE (R358): its class in force returns to FLT_CLASS, its holds end; spool_path clears its cause
bits (R549). -/
def clearSource (src : Nat) (s : State) : State :=
  let s := s.modSrc src (fun x => { x with st := 0, cls := 0, grace := none, targets := 0 })
  let s := if 1408 ≤ src ∧ src < 1920 ∧ (src - 1408) % 16 = 8 then
      s.modPath ((src - 1408) / 16) (fun p => { p with splCause := 0 }) else s
  each paths (fun n => unhold n (.source src)) s

/-- The condition of a condition source ends (R358). -/
def condEnd (src : Nat) (s : State) : State :=
  let x := s.srcAt src
  let s := s.modSrc src (fun x => { x with cond := false })
  if x.st = 1 then s.modSrc src (fun x => { x with st := 2 })
  else if x.st = 3 then clearSource src s
  else s

/-- An underlying condition of a grouped source ends (R357). -/
def groupEnd (src b : Nat) (s : State) : State :=
  let s := s.modSrc src (fun x => { x with under := x.under &&& ~~~BitVec.ofNat 8 (2 ^ b) })
  if (s.srcAt src).under = 0 then condEnd src s else s

/-- The effect of an acknowledgement on a source (R358, R359): none on a raising of the same instant (R384). -/
def ackEffect (src : Nat) (s : State) : State :=
  let x := s.srcAt src
  if s.pwr.fatal || x.raisedAt == some s.now then s
  else if x.st = 1 then s.modSrc src (fun x => { x with st := 3, grace := none })
  else if x.st = 2 then clearSource src s
  else s

/-- An acknowledgement with its FAULT_ACK entry (R359, R413). -/
def ackSource (o : Origin) (src : Nat) (s : State) : State :=
  withEntry { kind := 0x0B, origin := o, target := src, a := (s.srcAt src).st } (ackEffect src) s

/-- A source's path range is refused: the path's reporting entry (R209, R240). -/
def reportRefused (n dir first last : Nat) (s : State) : State := s.logEvent (reportEntry n dir true first last 0)

end Sys2Proof.Machine
end

