-- ==== Sys2Proof/Machine/Flags.lean ====
section
/-! DEFINITION. What every command settles at its end: the condition of gon_quiet (R484), the LOST entry (R415), the Logbook's own conditions (R410, R415),
full LOG records (R418), the pins FAULT_N and ALERT_N (R368, R369, R500) and the in-band interrupt (R500). -/

namespace Sys2Proof.Machine

/-- A source is uncleared (R358). -/
def State.anyUncleared (s : State) : Bool := s.flt.src.entries.any (fun e => e.2.st != 0)

/-- The device's reset pins are in their reset state. -/
def State.inReset (s : State) : Bool := s.pwr.por || s.pwr.dev

/-- No clock runs (R421): power-on reset, or REFCLK or a core clock is lost. -/
def State.unclocked (s : State) : Bool := s.pwr.por || s.pwr.clkLost

/-- The device stands still: in power-on or device reset, or without a clock (R421, R433). -/
def State.still (s : State) : Bool := s.inReset || s.pwr.clkLost

/-- FAULT_N is driven low (R368). -/
def State.faultLow (s : State) : Bool := !s.inReset && (s.anyUncleared || s.pwr.fatal || s.pwr.clkLost)

/-- The queue holds a record whose class has its bit in FLT_ALERT_CFG.class_mask (R369). -/
def State.alertRecord (s : State) : Bool :=
  s.flt.recs.any (fun r => Nat.testBit (s.bits 0x20808 3 0) (r.cls.toNat % 4))

/-- Mailbox 0 holds an outbound message and alert_mb is 1 (R500). -/
def State.alertMailbox (s : State) : Bool := !(s.mbAt 0).outQ.isEmpty && s.bit 0x70020 0

/-- ALERT_N is driven low (R369, R500). -/
def State.alertLow (s : State) : Bool := !s.inReset && (s.alertRecord || s.alertMailbox || s.pwr.fatal)

/-- The LOST entry is written when normal room returns (R415). -/
def settleLost (s : State) : State :=
  let r : LogReq := { kind := 0x1A, origin := .hardware, a := s.flt.logLost, b := s.log.infoLost }
  if s.log.lostDue && s.logRoom r then
    let s := s.logPut r
    { s with log := { s.log with lostDue := false } }
  else s

/-- log_reserve is a condition while the reserve is in use (R415); log_mirror is raised when more than 16,384 entries are
occupied (R410). -/
def settleLog (s : State) : State :=
  let used := decide (ringSize - ringReserve < s.log.used)
  let src := srcGlobal 70
  let s := if used && !(s.srcAt src).cond then raise src s
           else if !used && (s.srcAt src).cond then condEnd src s else s
  let late := decide (16384 < s.log.used)
  let s := if late && !s.log.mirrorLate then raise (srcGlobal 72) s else s
  { s with log := { s.log with mirrorLate := late } }

/-- The pins follow their conditions; an in-band interrupt starts when a condition of ALERT_N begins in I3C mode
(R500). -/
def settlePins (before s : State) : State :=
  let i3c := s.pwr.strap.toNat / 2 ^ 14 % 4 = 0 ∧ s.gon.mgmt.ibi
  let ibi := if i3c ∧ s.alertRecord ∧ !before.alertRecord then some 0x01#8
             else if i3c ∧ s.alertMailbox ∧ !before.alertMailbox then some 0x02#8 else none
  let s := { s with flt := { s.flt with faultN := s.faultLow, alertN := s.alertLow } }
  match ibi with
  | none => s
  | some d => s.modGon (fun g => { g with mgmt := { g.mgmt with ibiPend := some d } })

/-- gon_quiet is a condition while all four cores are in WAIT and none is halted (R484, R519). -/
def settleQuiet (s : State) : State :=
  let all := [0, 1, 2, 3].all (fun c => (s.coreAt c).waiting && !(s.coreAt c).halted)
  if (s.srcAt (srcGlobal 57)).cond && !all then condEnd (srcGlobal 57) s else s

/-- Every 125 entries that wait for a LOG record are sealed into one (R418). -/
def sealDue : Nat → State → State
  | 0, s => s
  | f + 1, s => if s.log.used < s.log.recorded + 125 then s else sealDue f (sealLog s)

/-- A LOG record is sealed once it holds 125 entries (R418). -/
def settleSeal (s : State) : State := if s.still then s else sealDue (s.log.used / 125) s

/-- Settle the state that a command leaves. -/
def settle (before s : State) : State := settlePins before (settleSeal (settleLog (settleLost (settleQuiet s))))

/-- The outcome of a command's effect `f`. -/
def done (f : State → State) (s : State) : Host.Outcome State Fault Refusal := .next (settle s (f s))

/-- The outcome of a command whose effect `f` needs a clock and the device out of power-on and device reset (R421, R433,
R435). -/
def live (f : State → State) : State → Host.Outcome State Fault Refusal := done (fun s => if s.still then s else f s)

end Sys2Proof.Machine
end

