-- ==== Sys2Proof/Machine/Stage.lean ====
section
/-! DEFINITION. Masked writes to registers with what they bring about, the binding of streams to key slots (R455), stage
sets, applies, switches and held writes (R400-R408). -/

namespace Sys2Proof.Machine

/-! ### Refused writes -/

/-- A refused register write is counted (R400). -/
def countRefused (s : State) : State := s.modPwr (fun p => { p with refused := satAdd 65535 p.refused 1 })

/-- A refused register write is counted and logged (R400, R488); `res` is the result of a refused APPEND (R401). -/
def refuseWrite (o : Origin) (addr value res : Nat) (s : State) : State :=
  withEntry { kind := 0x01, origin := o, target := addr, a := value, b := 1 + 2 * res } id (countRefused s)

/-- In Fatal and in device reset every register write is refused except through the debug wire (R371, R435). -/
def State.fatalRefuses (s : State) (o : Origin) : Bool := (s.pwr.fatal || s.pwr.dev) && o != .debug

/-- The outcome of a register write or command of origin `o` at an address: outside power-on reset, refused and logged in
Fatal and in device reset, else `f`. -/
def writeCmd (o : Origin) (addr value : Nat) (f : State → State) : State → Host.Outcome State Fault Refusal := done (fun s =>
  if s.unclocked then s else if s.fatalRefuses o then refuseWrite o addr value 0 s else f s)

/-! ### Key slots -/

/-- The root is blank, or a word of the identity kind is marginal: Envelope refuses every key (R441, R473). -/
def State.noRoot (s : State) : Bool := s.pwr.fuseMarg >>> 152 != 0 || s.pwr.rootId == 0

/-- The streams whose windows carry key slot `o` (R455). -/
def State.windowsOf (s : State) (o : Nat) : List Nat := s.streamsOf (fun k => (s.strmAt k).slot == some o)

/-- Bind the record at index `i` to slot `sl` (R455, R459). -/
def bindKey (i sl : Nat) (s : State) : State :=
  (s.modKey i (fun e => { e with slot := some sl })).modEnv (fun e =>
    { e with slot := e.slot.set none sl (some i), slotBad := e.slotBad &&& ~~~BitVec.ofNat 16 (2 ^ sl) })

/-- The lowest free slot of KS1-KS15 (R455). -/
def State.freeSlot (s : State) : Option Nat := (List.range 16).find? (fun k => k != 0 && (s.env.slot.get none k).isNone)

/-- A slot for a window: the old slot of a running rekey gives its new slot (R455). -/
def State.slotFor (s : State) (k : Nat) : Nat := if s.env.rkState ≠ 0 ∧ k = s.env.rkOld then s.env.rkNew else k

/-- The window of stream `k` is allocated and its key index bound to a slot (R455). -/
def bindStream (k : Nat) (s : State) : State :=
  let i := s.stKey k
  let put (sl : Option Nat) (ix : Nat) (s : State) : State := s.modStrm k (fun x => { x with slot := sl, keyIdx := ix })
  let s := s.modStrm k (fun x => { x with baseRow := Config.windowRow k (s.stWin k), rowNext := 0 })
  if !s.stEn k then put none 0 s
  else if i = 0 then put (some 0) 0 s
  else
    let e := s.keyAt i
    match e.slot with
    | some sl =>
      let sl := s.slotFor sl
      put (some sl) ((s.env.slot.get none sl).getD i) s
    | none =>
      if !e.loaded || e.bad || e.kind != 1 || s.noRoot || s.env.cleared then put none 0 s else
      match s.freeSlot with
      | none => put none 0 s
      | some sl => put (some sl) i (bindKey i sl s)

/-! ### Masked writes -/

/-- The blocks that check every write (R420). -/
def checkedBlock (a : Nat) : Bool :=
  match blockOf a with
  | some (.flt, _) | some (.log, _) | some (.env, _) | some (.dbg, _) | some (.trn, _) => true
  | _ => false

/-- A word of FLT_CLASS with each field at least its minimum (R355). -/
def classLimit (a v : Nat) : Nat :=
  let k := (a - 0x20000) / 4
  (List.range 16).foldl (fun r i => r + max (srcMin (16 * k + i)) (v / 4 ^ i % 4) * 4 ^ i) 0

/-- The value that a staged write leaves in a register of a checking block: limited as the field's rule gives, none when
the rule refuses it (R355, R366, R420, R471). -/
def fieldRule (a v : Nat) : Option Nat :=
  if 0x20000 ≤ a ∧ a < 0x20220 then some (classLimit a v)
  else if a = 0x20804 then some (min 10000000 (max 1 v))
  else if 0x60300 ≤ a ∧ a < 0x60338 then (if (List.range 8).any (fun i => v / 16 ^ i % 4 == 3) then none else some v)
  else some v

/-- The masks of a register: staged, direct, and every bit that is a field. -/
def stMask (a : Nat) : Nat := match regInfo a with | none => 0 | some i => i.st
def diMask (a : Nat) : Nat := match regInfo a with | none => 0 | some i => i.di
def tcMask (a : Nat) : Nat := match regInfo a with | none => 0 | some i => i.tc

/-- (old AND NOT mask) OR (value AND mask) (R401). -/
def masked (old value mask : Word) : Word := (old &&& ~~~mask) ||| (value &&& mask)

/-- One staged write reaches its register (R401). A write to a train-common field, or one that a checking block refuses, is
refused and logged (R351, R420). -/
def writeStaged (w : StagedWr) (s : State) : State :=
  let a := w.addr.toNat
  let m := w.mask &&& BitVec.ofNat 32 (stMask a)
  let v := masked (s.reg a) w.value m
  if (w.mask &&& BitVec.ofNat 32 (tcMask a)) ≠ 0 then refuseWrite w.origin a w.value.toNat 0 s
  else if checkedBlock a then
    if (w.mask &&& w.value &&& ~~~BitVec.ofNat 32 (stMask a)) ≠ 0 then refuseWrite w.origin a w.value.toNat 0 s
    else match fieldRule a v.toNat with
      | none => refuseWrite w.origin a w.value.toNat 0 s
      | some x => s.setReg a (BitVec.ofNat 32 x)
  else s.setReg a v

/-- Lanes take the state that their ports' definitions and their paths' modes give (R103, R104, R157). -/
def reform (s : State) : State :=
  each (List.range 128) (fun l s =>
    let x := s.laneAt l
    match s.pathOfLane l with
    | none => if x.st = .unassigned then s else s.modLane l (fun x => { x with st := .unassigned, txIdle := true, eligible := false })
    | some n => if x.st = .unassigned ∧ (s.pathAt n).mode = .moored then s.modLane l (fun x => { x with st := .moored }) else s) s

/-- The stream whose SPL_STREAM_CFG holds an address (R549). -/
def strmOfAddr (a : Nat) : Option Nat := if 0x510000 ≤ a ∧ a < 0x514000 then some ((a - 0x510000) / 16) else none

/-- The stream whose STO_EXTENT holds an address (R551). -/
def extOfAddr (a : Nat) : Option Nat := if 0x701000 ≤ a ∧ a < 0x705000 then some ((a - 0x701000) / 16) else none

/-- An address of a port or path definition (R157). -/
def isDefinition (a : Nat) : Bool :=
  match blockOf a with
  | some (.path _, o) => o < 8
  | some (.brd, _) => true
  | _ => false

/-- The path whose definition an address holds (R157). -/
def pathOfDef (a : Nat) : Option Nat :=
  match blockOf a with
  | some (.path n, o) => if o < 8 then some n else none
  | _ => none

/-- What written addresses bring about once their writes have taken effect: taps, lane states, the captures of a path with a new
definition (R265), windows. -/
def afterWrites (as : List Nat) (s : State) : State :=
  let taps := (as.filter (fun a => (laneOfAddr a).isSome && (a % 0x4000 == 0x10 || a % 0x4000 == 0x14))).filterMap laneOfAddr
  let s := each taps.eraseDups retap s
  let s := if as.any isDefinition then reform s else s
  let s := each (as.filterMap pathOfDef).eraseDups (endCaptures · 5) s
  let s := if as.contains 0x50010 && s.bit 0x50010 0 && s.gon.fwReady then s.modPwr (fun p => { p with avsRun := true, avsFail := 0 }) else s
  each ((as.filterMap strmOfAddr).eraseDups) bindStream s

/-- Writes that take effect together, in staged order (R402). -/
def applyWrites (ws : List StagedWr) (s : State) : State :=
  afterWrites (ws.map (fun w => w.addr.toNat)) (ws.foldl (fun s w => writeStaged w s) s)

/-! ### Paths concerned and holds -/

/-- The path as which a slot counts: its lead in a fan-out group (R403). -/
def State.leadOf (s : State) (n : Nat) : Nat := if s.pathEn n then s.pathLead n else n

/-- The path that a register concerns (R403); of several, the last. -/
def State.concerned (s : State) (a : Nat) : Option Nat :=
  let byI (ip : Nat) : Option Nat := ((paths.filter (fun n => s.pathEn n && s.pathI n == ip)).getLast?).map s.leadOf
  let byD (dp : Nat) : Option Nat := ((paths.filter (fun n => s.pathEn n && s.pathD n == dp)).getLast?).map s.leadOf
  let strm (k : Nat) : Option Nat := if s.stRole k ≤ 4 then some (s.leadOf (s.stPath k)) else none
  match blockOf a with
  | some (.path n, _) | some (.vrd n, _) => some (s.leadOf n)
  | some (.qle n, _) => byI n
  | some (.brd, o) => if o < 0x1000 then byI (o / 0x40) else byD ((o - 0x1000) / 16)
  | some (.spl, o) =>
    if 0x30000 ≤ o ∧ o < 0x32000 ∧ o % 0x100 = 0 then some (s.leadOf ((o - 0x30000) / 0x100)) else (strmOfAddr a).bind strm
  | some (.sto, _) => (extOfAddr a).bind strm
  | some (.die _, _) =>
    (match laneOfAddr a with
     | none => none
     | some l => if l < 64 then (s.portOfLane l).bind (fun p => byI p.1) else (s.pathOfD l).map s.leadOf)
  | _ => none

/-- An address of the retrain fields (R406), and whether its change is an I-side change. -/
def retrainField (a : Nat) : Option Bool :=
  match blockOf a with
  | some (.path _, o) => if o = 0x10 then some false else none
  | some (.qle _, o) => if o < 8 then some true else none
  | some (.die _, o) => if o < 0x80000 ∧ o % 0x4000 = 0 then (laneOfAddr a).map (fun l => decide (l < 64)) else none
  | _ => none

/-- A retrain field of path `p` is held: the path is not in STEADY, and neither free, Moored nor in Survey (R406). -/
def State.retrainHeld (s : State) (p : Nat) : Bool :=
  s.pathEn p && (s.pathAt p).mode != .moored && (s.pathAt p).mode != .survey && (s.pathAt p).phase != .steady

/-- Path `p` is in Moored: its mode, with no transition on the way to it (R157, R177). -/
def State.inMoored (s : State) (p : Nat) : Bool := (s.pathAt p).mode == .moored && (s.pathAt p).phase == .steady

/-- A stream is open, armed or being read (R245). -/
def StrmSt.busy (x : StrmSt) : Bool := x.isOpen || x.armed || x.reading

/-- The hold that a staged write to an address meets now, by its cause code (R404). -/
def State.holdOf (s : State) (a : Nat) : Option Nat :=
  match s.concerned a with
  | none => none
  | some p =>
    let active := s.pathEn p && !s.inMoored p
    if isDefinition a then (if active then some 1 else none) else
    match blockOf a with
    | some (.path _, o) =>
      if o = 0xC then (if s.pathEn p && (s.pathAt p).mode.guardFam then some 2 else none)
      else if (retrainField a).isSome && s.retrainHeld p then some 5 else none
    | some (.vrd n, _) => if (s.openCtxs n).isEmpty then none else some 4
    | some (.spl, _) => (match strmOfAddr a with
      | none => none
      | some k => if (s.strmAt k).busy then some 3 else none)
    | some (.sto, _) => (match extOfAddr a with
      | none => none
      | some k => if (s.strmAt k).busy then some 3 else none)
    | _ => if (retrainField a).isSome && s.retrainHeld p then some 5 else none

/-- Two writes touch the same bits. -/
def StagedWr.meets (a b : StagedWr) : Bool := a.addr == b.addr && (a.mask &&& b.mask) != 0

/-- What a STAGE_APPLY decides at its fire instant (R402): writes of no path, writes of paths in staged order, and held
writes. -/
structure ApplyPlan where
  free : List StagedWr := []
  path : List (Nat × StagedWr) := []
  held : List HeldWr := []

/-- Take one write into the plan (R402, R404). -/
def State.planWrite (s : State) (pl : ApplyPlan) (w : StagedWr) : ApplyPlan :=
  let a := w.addr.toNat
  match (s.stg.held ++ pl.held).find? (fun h => h.wr.meets w) with
  | some h => { pl with held := pl.held ++ [{ h with wr := w }] }
  | none =>
    match s.concerned a with
    | none => { pl with free := pl.free ++ [w] }
    | some p =>
      match s.holdOf a with
      | some c => { pl with held := pl.held ++ [{ cause := c, path := p, wr := w }] }
      | none => { pl with path := pl.path ++ [(p, w)] }

/-- The plan of an apply of set `k`. -/
def State.applyPlan (s : State) (k : Nat) : ApplyPlan := (s.stg.sets.get [] k).foldl s.planWrite {}

/-- A path whose switch is at the fire instant: free, Moored, or not in STEADY (R402). -/
def State.switchesNow (s : State) (p : Nat) : Bool :=
  !s.pathEn p || (s.pathAt p).mode == .moored || (s.pathAt p).phase != .steady

/-- The STAGE_APPLY entry (R413). -/
def State.applyEntry (s : State) (o : Origin) (k : Nat) (retain : Bool) : LogReq :=
  let pl := s.applyPlan k
  { kind := 0x03, origin := o, target := k + (if retain then 8 else 0), a := pl.free.length + pl.path.length,
    b := (pathMask ((pl.path.map (·.1)).eraseDups)).toNat }

/-- Event 2,250: with no switch outstanding, an apply has completed on every path it concerns (R486). -/
def applyDone (s : State) : State := if s.stg.applying = 0 then deliver 2250 s else s

/-- The effect of a STAGE_APPLY at its fire instant (R402, R404, R405). -/
def stageEffect (k : Nat) (retain : Bool) (s : State) : State :=
  let pl := s.applyPlan k
  let ps := (pl.path.map (·.1)).eraseDups
  let wait := ps.filter (fun p => !s.switchesNow p)
  let keep := if retain then (s.stg.sets.get [] k).filter (fun w => !(pl.held.any (fun h => h.wr == w))) else []
  let nowW := pl.free ++ (pl.path.filter (fun x => !wait.contains x.1)).map (·.2)
  let s := { s with stg := { s.stg with
    sets := s.stg.sets.set [] k keep, held := s.stg.held ++ pl.held, applying := s.stg.applying ||| pathMask wait } }
  let s := each wait (fun p s => waitAct p (.writes ((pl.path.filter (·.1 == p)).map (·.2))) s) s
  applyDone (applyWrites nowW s)

/-- An uncorrectable error in a set discards it (R402). -/
def stageEcc (k : Nat) (s : State) : State :=
  raise (srcGlobal 65) { s with stg := { s.stg with sets := s.stg.sets.set [] k [] } }

/-- The hardware of path `p` keeps the words of the retrain fields among some addresses until its next bring-up (R406, R408). -/
def keepOld (p : Nat) (as : List Nat) (s : State) : State :=
  if !s.pathEn p || (s.pathAt p).mode == .moored then s
  else { s with regs := { s.regs with
    old := (as.filter (fun a => (retrainField a).isSome)).foldl (fun t a => t.set none a (some (p, s.hw a))) s.regs.old } }

/-- The writes of an apply that switch at path `p` take effect together; a retrain field starts a retrain change (R402,
R406-R408). -/
def switchWrites (p : Nat) (ws : List StagedWr) (s : State) : State :=
  let more := (s.stg.switch.get [] p).any (fun x => match x with | .writes _ => true | _ => false)
  let s := if more then s else { s with stg := { s.stg with applying := s.stg.applying &&& ~~~pathMask [p] } }
  let s := applyDone (applyWrites ws (keepOld p (ws.map (fun w => w.addr.toNat)) s))
  let rt := ws.filterMap (fun w => retrainField w.addr.toNat)
  if rt.isEmpty then s else startRetrain (rt.any id) p s

/-! ### Held writes -/

/-- The condition of a held write has ended (R157, R245, R328, R404, R406). -/
def State.holdEnded (s : State) (h : HeldWr) : Bool :=
  let a := h.wr.addr.toNat
  h.due.isSome || (match h.cause with
    | 1 => !s.pathEn h.path || s.inMoored h.path
    | 2 => !s.pathEn h.path
    | 3 => (match (strmOfAddr a).or (extOfAddr a) with
      | none => true
      | some k => !(s.strmAt k).busy)
    | 4 => (match blockOf a with
      | some (.vrd n, _) => (s.openCtxs n).isEmpty
      | _ => true)
    | _ => !s.retrainHeld h.path)

/-- The STAGE_HELD entry (R404, R413). -/
def heldEntry (h : HeldWr) : LogReq :=
  { kind := 0x04, origin := h.wr.origin, target := h.wr.addr.toNat, a := h.wr.value.toNat, b := h.cause }

/-- Commit the entries of the held writes in order; those refused stay held and are due (R404). Answers the writes that
take effect. -/
def commitHeld : List HeldWr → State → List HeldWr × List HeldWr × State
  | [], s => ([], [], s)
  | h :: t, s =>
    match s.commit (heldEntry h) with
    | some s' => let r := commitHeld t s'; (h :: r.1, r.2.1, r.2.2)
    | none => let r := commitHeld t (logRefused s); (r.1, { h with due := some (s.now + us) } :: r.2.1, r.2.2)

/-- The held writes whose condition has ended take effect in staged order (R404). -/
def releaseWhere (pick : HeldWr → Bool) (s : State) : State :=
  let hs := s.stg.held.filter pick
  if hs.isEmpty then s else
  let r := commitHeld hs s
  let s := r.2.2
  let s := { s with stg := { s.stg with held := (s.stg.held.filter (fun h => !pick h)) ++ r.2.1 } }
  let s := r.1.foldl (fun s h => keepOld h.path [h.wr.addr.toNat] s) s
  let s := applyWrites (r.1.map (·.wr)) s
  each ((r.1.map (·.path)).eraseDups) (fun p s =>
    let rt := (r.1.filter (·.path == p)).filterMap (fun h => retrainField h.wr.addr.toNat)
    if rt.isEmpty then s else startRetrain (rt.any id) p s) s

/-- The held writes of path `p` whose condition has ended take effect (R404). -/
def releaseHeld (p : Nat) (s : State) : State := releaseWhere (fun h => h.path == p && s.holdEnded h) s

/-- A path reset takes the held definitions of path `p` (R157, R409). -/
def releaseReset (p : Nat) (s : State) : State :=
  releaseWhere (fun h => h.path == p && (h.cause == 1 || h.cause == 5)) s

end Sys2Proof.Machine
end

