-- ==== Sys2Proof/Machine/Train.lean ====
section
/-! DEFINITION. The train unit (R331-R351): slots, comparisons with the master, holds, coasting and the peer view. -/

namespace Sys2Proof.Machine

/-! ### Train state -/

/-- The condition bits of TRN_STATUS (R537). -/
def TrnSt.bits (t : TrnSt) : Nat :=
  (if t.coasting then 128 else 0) + (if t.masterNone then 64 else 0) + (if t.masterSilent then 32 else 0)
    + (if t.indexUnconf then 16 else 0) + (if t.indexBad then 8 else 0) + (if t.fwDiffers then 4 else 0)
    + (if t.digestUnconf then 2 else 0) + (if t.digestBad then 1 else 0)

/-- The hold applies (R346). -/
def State.trainHold (s : State) : Bool := s.trn.digestBad || (s.trn.digestUnconf && s.reqConfirm)

/-- A change of the train state with its TRAIN entry (R347, R413) and the hold that follows from it (R345). -/
def changeTrain (o : Origin) (who : Nat) (f : TrnSt → TrnSt) (s : State) : State :=
  let before := s.trn.bits
  let held := s.trainHold
  let s := s.modTrn f
  let after := s.trn.bits
  let s := if before = after then s
    else s.logEvent { kind := 0x17, origin := o, target := who, a := after, b := before }
  if s.trainHold && !held then
    let c := s.nextCls (srcGlobal 9)
    each (paths.filter s.pathEn) (fun n => enterSafe n .train { source := srcGlobal 9, cls := c } true) s
  else if held && !s.trainHold then each paths (fun n => unhold n .train) s
  else s

/-- The train unit runs: enabled and outside reset (R339, R350). -/
def State.trainOn (s : State) : Bool := s.trnEnable && !s.still

/-- A member other than the master starts unconfirmed, and counts as master silent (R347); with the hold of R346 its paths do
not begin their bring-up, and the flit of their safe state reports the hold (R233). -/
def trainStart (s : State) : State :=
  if s.trnEnable && s.trainId != 0 then
    let before := s.trn.bits
    let s := s.modTrn (fun t => { t with digestUnconf := true, indexUnconf := true, masterSilent := true })
    let s := s.logEvent { kind := 0x17, origin := .hardware, target := s.trainId, a := s.trn.bits, b := before }
    if s.trainHold then
      each (paths.filter s.pathEn) (fun n s =>
        let s := s.modPath n (fun p => { p with safe := true, upPend := true, holds := [.train] })
        let s := if (s.pathAt n).mode.family then s.sendFault n { source := srcGlobal 83, cls := 0 } else s
        s.logEvent (phaseEntry .hardware n (s.pathAt n).mode.code (s.pathAt n).phase.code 2)) s
    else s
  else s

/-! ### Rounds and the peer view -/

/-- An own-slot fault of this round (R349); the second round in succession raises id_conflict. -/
def conflictSeen (s : State) : State :=
  if s.trn.foreign then s else
  let s := s.modTrn (fun t => { t with foreign := true, conflict := t.conflict + 1 })
  if s.trn.conflict = 2 then raise (srcGlobal 15) s else s

/-- A round begins at an instant (R333, R348): the members not heard in the last one count a round. -/
def newRound (page start : Nat) (s : State) : State :=
  let s := each (List.range 64) (fun m s => s.modPeer m (fun p =>
    if m = s.trainId then p else
    let since := if p.heard then 0 else min 255 (p.since + 1)
    { p with heardPrev := p.heard, heard := false, since := since, present := p.everHeard && decide (since < 4) })) s
  s.modTrn (fun t => { t with round := page, roundAt := start, roundErr := 0, sent := false, foreign := false,
                              conflict := if t.foreign then t.conflict else 0 })

/-- A valid slot of another member (R348). -/
def peerHeard (m : Nat) (pl : BitVec 168) (s : State) : State :=
  let v := pl.toNat
  let page := v / 2 ^ 160 % 4
  let fl := BitVec.ofNat 8 (v / 2 ^ 152)
  let idx := v / 2 ^ 104 % 2 ^ 48
  let hb := BitVec.ofNat 8 (v / 2 ^ 96)
  let body := v / 2 ^ 16 % 2 ^ 80
  let t := s.trn
  let p := s.peerAt m
  let again := p.everHeard && ((p.heardPrev && hb != p.heartbeat + 1) || (!p.heardPrev && !p.heard && hb == 0))
  let s := s.modPeer m (fun p => { p with
    present := true, heard := true, since := 0, everHeard := true, heartbeat := hb, flags := fl, absent := false,
    restarts := if again then satAdd (2 ^ 32 - 1) p.restarts 1 else p.restarts,
    digestDiff := if page = 0 then body / 2 ^ 16 != t.masterDigest.toNat else p.digestDiff,
    fw := if page = 1 then BitVec.ofNat 32 (body / 2 ^ 48) else p.fw,
    gen := if page = 1 then BitVec.ofNat 32 (body / 2 ^ 16) else p.gen,
    versionDiff := if page = 1 then body / 2 ^ 64 != t.masterFw.toNat / 2 ^ 16 else p.versionDiff,
    indexDiff := match t.masterIndex with
      | none => p.indexDiff
      | some i => if idx = 2 ^ 48 - 1 then p.indexDiff else idx != i })
  if p.absent && !(s.trn.peer.entries.any (fun e => e.2.absent)) then condEnd (srcGlobal 14) s else s

/-- One path summary of member `m` on the master (R344, R345): a disagreement lasts until a summary that agrees. -/
def comparePath (m n e : Nat) (s : State) : State :=
  let key := 32 * m + n
  let setC (c : Nat) (s : State) : State := s.modTrn (fun t => { t with pathCnt := t.pathCnt.set 0 key c })
  let old := s.trn.pathCnt.get 0 key
  if !(Nat.testBit e 4 && s.pathEn n) then (if old < 2 then setC 0 s else s)
  else if e % 8 = (s.trn.implied.get .moored n).code then
    let s := setC 0 s
    let any := (List.range 32).any (fun k => decide (2 ≤ s.trn.pathCnt.get 0 (32 * m + k)))
    s.modPeer m (fun p => { p with pathDiff := any })
  else
    let c := min 3 (old + 1)
    let s := setC c s
    if c = 2 then raise (srcGlobal 13) (s.modPeer m (fun p => { p with pathDiff := true, pathSlot := n })) else s

/-- The path summaries of a page on the master (R336, R344). -/
def comparePaths (m page body : Nat) (s : State) : State :=
  if page < 2 then s else
  each (List.range 16) (fun k => comparePath m (16 * (page - 2) + k) (body / 2 ^ (75 - 5 * k) % 32)) s

/-! ### Comparisons with the master -/

/-- Two versions differ (R342). -/
def versionsDiffer (a b : Word) : Bool := a.toNat / 2 ^ 16 != b.toNat / 2 ^ 16

/-- Both versions are among the compatible ones (R342). -/
def State.compatible (s : State) (a b : Word) : Bool :=
  let vs := ((List.range 16).map (fun i => (s.reg (0x40040 + 4 * i)).toNat / 2 ^ 16)).filter (· ≠ 0)
  vs.contains (a.toNat / 2 ^ 16) && vs.contains (b.toNat / 2 ^ 16)

/-- The master's digest on page 0 (R345, R347). -/
def TrnSt.digestCompare (d : BitVec 64) (t : TrnSt) : TrnSt :=
  { t with masterDigest := d, digestUnconf := false, digestBad := d != t.ownDigest }

/-- The master's firmware version on page 1 (R345). -/
def TrnSt.versionCompare (v : Word) (compat : Bool) (t : TrnSt) : TrnSt :=
  let differs := versionsDiffer v t.fwVersion
  { t with masterFw := v, fwDiffers := differs, fwCompat := differs && compat }

/-- A local beat edge lies within 64 ns of an instant (R343). -/
def State.edgeNear (s : State) (t : Nat) : Bool :=
  let near (e : Nat) : Bool := decide (t ≤ e + 64 * ns) && decide (e ≤ t + 64 * ns)
  (s.beat.st != .none && near s.beat.edge) || s.beat.pend.any (fun f => near f.edge)

/-- The comparison of the beat index at the master reference (R343, R345), where the two may be compared. -/
def TrnSt.indexCompare (idx own : Nat) (t : TrnSt) : TrnSt :=
  if idx = own then (if t.agreeing then t else { t with agreeing := true, agree := 0 })
  else { t with agreeing := false, agree := 0, indexBad := true }

/-- The train state after a valid master slot with beat state NONE or not, beat index, page and body, at an instant (R340,
R343-R347). -/
def State.afterMaster (s : State) (t idx page body : Nat) (none0 : Bool) : TrnSt :=
  let x := { s.trn with
    masterRef := some t, heardMaster := true, coasting := false, masterNone := none0,
    masterSilent := s.trn.masterSilent && none0, masterIndex := if none0 then none else some idx }
  let v := BitVec.ofNat 32 (body / 2 ^ 48)
  let x := if page = 0 then x.digestCompare (BitVec.ofNat 64 (body / 2 ^ 16))
           else if page = 1 then x.versionCompare v (s.compatible v x.fwVersion) else x
  if none0 || s.beat.st == .none || s.edgeNear t then x else x.indexCompare idx s.beat.index

/-- A valid master slot on a member (R333, R340, R343-R347): one change of the train state, then what begins or ends with
it. A version that differs is raised as Minor when it is compatible. -/
def masterSlot (t : Nat) (pl : BitVec 168) (s : State) : State :=
  let v := pl.toNat
  let page := v / 2 ^ 160 % 4
  let s := newRound page (t - 285 * ns) s
  let x := s.trn
  let y := s.afterMaster t (v / 2 ^ 104 % 2 ^ 48) page (v / 2 ^ 16 % 2 ^ 80) (decide (v / 2 ^ 158 % 4 = 0))
  let s := changeTrain (.trainPeer 0) 0 (fun _ => y) s
  let s := if x.masterSilent && !y.masterSilent then condEnd (srcGlobal 12) s else s
  let s := if y.digestBad && !x.digestBad then raise (srcGlobal 9) s
           else if x.digestBad && !y.digestBad then condEnd (srcGlobal 9) s else s
  let s := if y.fwDiffers && (!x.fwDiffers || x.fwCompat != y.fwCompat) then
             detect (srcGlobal 10) (if y.fwCompat then some 1 else none) true [] 0 s
           else s
  if y.indexBad && !x.indexBad then raise (srcGlobal 11) s else s

/-- The inversion and the payload of a received slot that is valid (R337, R338). -/
def validSlot (rx : TrainRx) : Option (Bool × BitVec 168) :=
  match slotDecode rx.cells with
  | none => none
  | some (inv, pl) =>
    let v := pl.toNat
    if crc16 (bitsOf 152 (v / 2 ^ 16)) = v % 65536 ∧ v / 2 ^ 162 = rx.arrival.val ∧ v / 2 ^ 152 % 4 = 0 then some (inv, pl)
    else none

/-- A slot arrives (R337, R338, R348, R349). -/
def trainRx (t : Nat) (rx : TrainRx) (s : State) : State :=
  if !s.trainOn then s else
  let a := rx.arrival.val
  match validSlot rx with
  | none =>
    let s := s.modTrn (fun x => { x with slotErr := satAdd 65535 x.slotErr 1, roundErr := x.roundErr + 1 })
    let s := if a = s.trainId ∧ s.trn.sent then conflictSeen s else s
    if s.trn.roundErr = s.errLimit + 1 then raise (srcGlobal 17) s else s
  | some (inv, pl) =>
    let s := if s.trn.polarity = some (!inv) then raise (srcGlobal 16) s else s
    let s := s.modTrn (fun x => { x with polarity := some inv })
    if a = s.trainId then (if s.trn.sent then s else conflictSeen s)
    else
      let s := if a = 0 then masterSlot t pl s else s
      let s := peerHeard a pl s
      if s.trainId = 0 then comparePaths a (pl.toNat / 2 ^ 160 % 4) (pl.toNat / 2 ^ 16 % 2 ^ 80) s else s

/-! ### Sending -/

/-- The path summary of a slot (R336). -/
def State.summary (s : State) (n : Nat) : Nat :=
  if s.pathEn n then 16 + (if (s.pathAt n).safe then 8 else 0) + (s.pathAt n).mode.code else 0

/-- The body of a page (R336). -/
def State.slotBody (s : State) (page : Nat) : Nat :=
  match page with
  | 0 => s.trn.ownDigest.toNat * 2 ^ 16
  | 1 => s.trn.fwVersion.toNat * 2 ^ 48 + s.gon.img.gRun.toNat * 2 ^ 16
  | p => (List.range 16).foldl (fun a k => a + s.summary (16 * (p - 2) + k) * 2 ^ (75 - 5 * k)) 0

/-- The payload of the slot that the device sends now (R335). -/
def State.slotPayload (s : State) : BitVec 168 :=
  let page := s.trn.round % 4
  let flags := s.beat.st.code * 64 + (if s.trainHold then 32 else 0) + (if s.trn.coasting then 16 else 0)
    + (if s.flt.faultN then 8 else 0) + (if s.pwr.fatal then 4 else 0)
  let idx := if s.beat.st = .none then 2 ^ 48 - 1 else s.beat.index
  let v := ((((s.trainId * 4 + page) * 256 + flags) * 2 ^ 48 + idx) * 256 + s.trn.heartbeat.toNat) * 2 ^ 80 + s.slotBody page
  BitVec.ofNat 168 (v * 65536 + crc16 (bitsOf 152 v))

/-- The instant at which the own slot starts in the present round (R333, R340): the round starts with the master's slot 0, as
a member sees it 285 ns before the master reference, or at the beat edge of a coasting member. -/
def State.slotStart (s : State) : Nat := s.trn.roundAt + s.trainId * (2 * us)

/-- The device sends its slot now (R332, R333, R340, R347). -/
def State.mayPublish (s : State) : Bool :=
  s.trainOn && !s.trn.sent && s.now == s.slotStart && (if s.trainId = 0 then s.trn.masterRef.isSome
    else if s.trn.coasting then s.beat.st == .locked else s.trn.heardMaster)

/-- The own slot is sent and read back (R335, R349). -/
def sendSlot (readback : BitVec 400) (s : State) : State :=
  if !s.mayPublish then s else
  let pl := s.slotPayload
  let s := s.modTrn (fun t => { t with
    sent := true, lastSent := some (slotCells pl), heartbeat := t.heartbeat + 1,
    masterIndex := if s.trainId = 0 then (if s.beat.st = .none then none else some s.beat.index) else t.masterIndex,
    masterDigest := if s.trainId = 0 then t.ownDigest else t.masterDigest,
    masterFw := if s.trainId = 0 then t.fwVersion else t.masterFw })
  if (slotDecode readback).any (fun p => p.2 == pl) then s else conflictSeen s

/-! ### The beat's part -/

/-- A local beat edge on the train unit (R340, R345, R351): the index clearance counts, and a coasting member starts a
round. -/
def trainEdge (s : State) : State :=
  if !s.trainOn || s.trainId = 0 then s else
  let s := if s.beat.st == .locked then
      if s.trn.agreeing && decide (s.trn.agree < 8) then
        let s := s.modTrn (fun t => { t with agree := t.agree + 1 })
        if s.trn.agree = 8 && (s.trn.indexBad || s.trn.indexUnconf) then
          let bad := s.trn.indexBad
          let s := changeTrain .hardware s.trainId (fun t => { t with indexBad := false, indexUnconf := false }) s
          if bad then condEnd (srcGlobal 11) s else s
        else s
      else s
    else s.modTrn (fun t => { t with agree := 0 })
  if s.trn.coasting && s.beat.st == .locked && decide (0 < s.coastBeats) && s.beat.index % s.coastBeats == 0 then
    newRound (s.beat.index / s.coastBeats % 4) s.now s
  else s

/-! ### Commands -/

/-- TRAIN_SLOT (R337). `t` is the instant of the mid-cell transition of bit cell 28. -/
def execTrainSlot (t : Nat) (rx : TrainRx) := done (fun s => trainRx t rx (s.at t))

/-- TRAIN_ROUND_START (R333): the master starts a round, 256 µs less at most 100 ppm after the last one. -/
def execTrainRoundStart (t : Nat) := done (fun s =>
  let s := s.at t
  if s.trainOn && s.trainId == 0 && (s.trn.masterRef.isNone || decide (s.trn.roundAt + 255975 * ns ≤ s.now)) then
    (newRound (if s.trn.masterRef.isNone then 0 else (s.trn.round + 1) % 256) s.now s).modTrn (fun x => { x with masterRef := some s.now })
  else s)

/-- TRAIN_SLOT_SEND (R334, R335): the own slot leaves, with the half-cells that the receiver reads back. -/
def execTrainSlotSend (t : Nat) (readback : BitVec 400) := done (fun s => sendSlot readback (s.at t))

/-- MASTER_SILENT (R345): no valid master slot for 1,026 µs. -/
def execMasterSilent (t : Nat) := done (fun s =>
  let s := s.at t
  match s.trn.masterRef with
  | none => s
  | some r =>
    if s.trainOn && s.trainId != 0 && s.trn.heardMaster && decide (r + 1026 * us ≤ s.now) && !s.trn.coasting then
      let was := s.trn.masterSilent
      let s := changeTrain .hardware s.trainId (fun x => { x with masterSilent := true, coasting := true }) s
      if was then s else raise (srcGlobal 12) s
    else s)

/-- PEER_ABSENT (R348): four rounds have passed without a valid slot of an expected member. -/
def execPeerAbsent (id : Fin 64) := done (fun s =>
  let m := id.val
  let p := s.peerAt m
  let expected := if m < 32 then s.bit 0x40008 m else s.bit 0x4000C (m - 32)
  if s.trainOn && m != s.trainId && decide (4 ≤ p.since) && !p.absent then
    let s := s.modPeer m (fun p => { p with present := false, absent := expected })
    if expected then raise (srcGlobal 14) s else s
  else s)

end Sys2Proof.Machine
end

