-- ==== Sys2Proof/Machine/Sched.lean ====
section
/-! DEFINITION. The schedule: decoding of entries (R57, R58), the actions with their refusals and entries (R58, R168, R181,
R468, R597), firing (R61-R66), loading and cancelling (R59, R60). -/

namespace Sys2Proof.Machine

/-! ### Actions -/

/-- The action code (R58). -/
def Act.code : Act → Nat
  | .nop _ => 0x00 | .stageApply _ _ _ => 0x01 | .modeSet _ _ => 0x02 | .captureOpen _ _ => 0x03 | .captureClose _ => 0x04
  | .windowOpen _ _ _ => 0x05 | .windowClose _ _ => 0x06 | .spareSwap _ _ _ => 0x07 | .rekey _ _ _ => 0x08
  | .freeze on _ => if on then 0x09 else 0x0A
  | .logMark _ => 0x0B | .stimStart _ _ => 0x0C | .stimStop _ => 0x0D | .trigger _ _ _ => 0x0E | .markSend _ _ => 0x0F

/-- The target field (R58). -/
def Act.target : Act → Nat
  | .nop _ | .stageApply _ _ _ | .logMark _ => 0
  | .modeSet p _ | .stimStart p _ | .stimStop p | .trigger _ p _ => p
  | .captureOpen k _ | .captureClose k => k
  | .windowOpen n c _ | .windowClose n c => n + 32 * c
  | .spareSwap ip _ _ | .markSend ip _ => ip
  | .rekey _ o _ => o
  | .freeze _ t => t

/-- W2 of a valid entry with an action (R57). -/
def Act.w2 (a : Act) (train : Bool) : Nat := 2 ^ 31 + (if train then 2 ^ 30 else 0) + a.code * 2 ^ 20 + a.target % 65536

/-- The action of W2 and W3 (R57, R58); none for a code of 0x10 to 0xFF. -/
def actOf (w2 w3 : Nat) : Option Act :=
  let t := w2 % 65536
  match w2 / 2 ^ 20 % 256 with
  | 0x00 => some (.nop w3)
  | 0x01 => some (.stageApply (w3 % 8) (Nat.testBit w3 3) false)
  | 0x02 => some (.modeSet (t % 32) (modeOf (w3 % 8)))
  | 0x03 => some (.captureOpen (t % 1024) w3)
  | 0x04 => some (.captureClose (t % 1024))
  | 0x05 => some (.windowOpen (t % 32) (t / 32 % 4) (BitVec.ofNat 16 w3))
  | 0x06 => some (.windowClose (t % 32) (t / 32 % 4))
  | 0x07 => some (.spareSwap (t % 32) (w3 / 256 % 64) (w3 % 64))
  | 0x08 => some (.rekey (w3 / 16 % 4) (t % 16) (w3 % 16))
  | 0x09 => some (.freeze true t)
  | 0x0A => some (.freeze false t)
  | 0x0B => some (.logMark w3)
  | 0x0C => some (.stimStart (t % 32) (w3 % 2 == 1))
  | 0x0D => some (.stimStop (t % 32))
  | 0x0E => some (.trigger (Nat.testBit w3 2) (t % 32) (w3 % 4))
  | 0x0F => some (.markSend (t % 32) w3)
  | _ => none

/-- The target of an ADAPT_FREEZE scope (R58). -/
def freezeTarget : FreezeScope → Nat
  | .lane l => l.val
  | .path p => 2 ^ 14 + p.val
  | .all => 2 ^ 15

/-- The lanes in the scope of an ADAPT target (R58); none for a host error. -/
def State.freezeLanes (s : State) (t : Nat) : List Nat :=
  match t / 2 ^ 14 % 4 with
  | 0 => if t % 256 < 144 then [t % 256] else []
  | 1 => s.dLanes (t % 32) ++ s.iLanes (t % 32)
  | 2 => List.range 128
  | _ => []

/-! ### Refusals -/

/-- The position of an I lane in a port. -/
def State.posOfLane (s : State) (ip l : Nat) : Option Nat := 
  (s.portOfLane l).bind (fun x => if x.1 = ip then some x.2 else none)

/-- A mask holds a position. -/
def hasPos (m : BitVec 18) (k : Nat) : Bool := Nat.testBit m.toNat k

/-- Why a SPARE_SWAP that fired at `fired` is refused now (R168). The forced swap of cause 3 goes before every action that waits
for the same boundary (R28). -/
def State.swapRefusal (s : State) (ip inn out fired : Nat) : Option Nat :=
  let p := s.portAt ip
  let taken := match s.posOfLane ip inn with
    | none => false
    | some k => (match p.forced.get none k with | none => false | some t => decide (fired ≤ t))
  let safe := match s.pathOfI ip with | none => false | some n => (s.pathAt n).safe
  let inPool := match s.posOfLane ip inn with | none => false | some k => hasPos p.pool k
  let outOk := match s.posOfLane ip out with | none => false | some k => !hasPos p.pool k
  if !s.ipEn ip || !p.up then some 1
  else if safe then some 2
  else if taken then some 3
  else if !inPool then some 4
  else if !outOk then some 5
  else none

/-- Why a STIM_START is refused (R597). -/
def State.stimRefusal (s : State) (n : Nat) : Option Nat :=
  let p := s.pathAt n
  if s.pathEn n && s.pathLead n != n then some 1
  else if !p.mode.driveFam then some 2
  else if p.phase != .steady then some 3
  else if p.safe then some 4
  else none

/-- Why a MARK_SEND is refused (R597). -/
def State.markRefusal (s : State) (ip : Nat) : Option Nat := if s.ipEn ip && (s.portAt ip).up then none else some 1

/-- The rows of the windows that carry slot `o`, ascending: first row and count (R469). -/
def State.slotRows (s : State) (o : Nat) : List (Nat × Nat) :=
  let ws := (s.windowsOf o).map (fun k => ((s.strmAt k).baseRow, s.stWin k))
  ws.foldl (fun l w => (l.takeWhile (fun x => decide (x.1 ≤ w.1))) ++ [w] ++ (l.dropWhile (fun x => decide (x.1 ≤ w.1)))) []

/-- The result of a REKEY step (R468). -/
def State.rekeyResult (s : State) (step old new : Nat) : Nat :=
  let e := s.env
  if step = 0 then
    if s.noRoot then 6
    else if e.rkState ≠ 0 then 1
    else if new = 0 ∨ (e.slot.get none new).isNone ∨ !(s.windowsOf new).isEmpty then 2
    else if old = new ∨ (s.windowsOf old).isEmpty then 3
    else 0
  else if e.rkState = 0 ∨ e.rkOld ≠ old ∨ e.rkNew ≠ new then 4
  else if step = 3 ∧ e.rkState ≠ 3 then 5
  else 0

/-- The row at a place of a list of row ranges (R469); the row after the last when it lies beyond. -/
def rowAt : List (Nat × Nat) → Nat → Nat
  | [], _ => 0
  | [(b, c)], i => b + min i c
  | (b, c) :: t, i => if i < c then b + i else rowAt t (i - c)

/-- The boundary of the running rekey (R469). -/
def EnvSt.boundary (e : EnvSt) : Nat := rowAt e.rkRows e.rkDone

/-- The KEY_OP entry of a REKEY step (R474): it names the new slot's record. -/
def State.rekeyEntry (s : State) (o : Origin) (step old new : Nat) : LogReq :=
  let r := s.rekeyResult step old new
  let i := (s.env.slot.get none new).getD 0
  let bd := if step = 0 ∧ r = 0 then rowAt (s.slotRows old) 0 else s.env.rkBoundary
  { kind := 0x0E, origin := o, target := i + 2 ^ 8 * old + 2 ^ 12 * new + 2 ^ 16 * (6 + step), a := (s.keyAt i).keyId.toNat,
    b := r + 2 ^ 8 * (bd % 2 ^ 24) }

/-- The REKEY_DONE entry (R469, R474). -/
def State.rekeyDone (s : State) : LogReq :=
  let i := (s.env.slot.get none s.env.rkNew).getD 0
  { kind := 0x0E, origin := .hardware, target := i + 2 ^ 8 * s.env.rkOld + 2 ^ 12 * s.env.rkNew + 2 ^ 16 * 0x0A,
    a := (s.keyAt i).keyId.toNat, b := 2 ^ 8 * (rowAt s.env.rkRows (s.env.rkTotal - 1) % 2 ^ 24) }

/-! ### Effects -/

/-- The lane flit index of the next boundary of a port position (R198). -/
def State.nextIdx (s : State) (ip k : Nat) : FlitIndex :=
  let x := (s.portAt ip).txIdx.get (0, 0) k
  { n := x.1, f := x.2 }

/-- A planned swap (R167, R218): the sender applies it and sends SWAP. -/
def doSwap (ip inn out : Nat) (s : State) : State :=
  match s.posOfLane ip inn, s.posOfLane ip out with
  | some i, some o =>
    let p := s.portAt ip
    let act := hasPos p.active o
    let msg : SpareMsg := { op := 3, out := o, inn := i, cause := 5, tx := some (s.nextIdx ip i), lost := none, since := s.now, sentAt := s.now }
    s.modPort ip (fun p => { p with
      active := (p.active &&& ~~~posBit o) ||| posBit i,
      pool := if act then (p.pool &&& ~~~posBit i) ||| posBit o else p.pool &&& ~~~posBit i,
      spare := p.spare ++ [msg] })
  | _, _ => s

/-- The rekey is complete when no row of its range is left (R469). -/
def rekeyCheck (s : State) : State :=
  if (s.env.rkState = 1 ∨ s.env.rkState = 2) ∧ s.env.rkTotal ≤ s.env.rkDone ∧ s.env.rkAgain = [] then
    (s.logEvent s.rekeyDone).modEnv (fun e => { e with rkState := 3 })
  else s

/-- Slot `sl` is zeroised and its record unbound (R459, R470). -/
def zeroiseSlot (sl : Nat) (s : State) : State :=
  let s := match s.env.slot.get none sl with
    | none => s
    | some i => s.modKey i (fun e => { e with slot := none })
  s.modEnv (fun e => { e with slot := e.slot.set none sl none, slotBad := e.slotBad &&& ~~~BitVec.ofNat 16 (2 ^ sl) })

/-- A REKEY step takes effect (R468-R470). -/
def doRekey (step old new : Nat) (s : State) : State :=
  let r := s.rekeyResult step old new
  let s := s.modEnv (fun e => { e with rkResult := r })
  if r ≠ 0 then s else
  match step with
  | 0 =>
    let rows := s.slotRows old
    rekeyCheck (s.modEnv (fun e => { e with
      rkState := 1, rkOld := old, rkNew := new, rkRows := rows, rkTotal := rows.foldl (fun a w => a + w.2) 0, rkDone := 0, rkAgain := [],
      rkBoundary := rowAt rows 0 }))
  | 1 => s.modEnv (fun e => { e with rkState := if e.rkState = 1 then 2 else e.rkState })
  | 2 => s.modEnv (fun e => { e with rkState := if e.rkState = 2 then 1 else e.rkState })
  | _ =>
    let i := (s.env.slot.get none new).getD 0
    let s := each (s.windowsOf old) (fun k s => s.modStrm k (fun x => { x with slot := some new, keyIdx := i })) s
    let s := if old = 0 then s else zeroiseSlot old s
    s.modEnv (fun e => { e with rkState := 0 })

/-- ADAPT_FREEZE and ADAPT_UNFREEZE on one lane (R90, R91). -/
def freezeLane (on : Bool) (l : Nat) (s : State) : State :=
  s.modLane l (fun x =>
    if !on then { x with frozen := false, freezePend := false }
    else if x.st = .run then { x with frozen := true } else { x with freezePend := true })

/-- The payload of a MARK flit (R234). -/
def markPayload (v : Nat) (late : Bool) (t : Nat) : List Byte :=
  fit 256 0 (bytesOf 4 v ++ bytesOf 8 (t % 2 ^ 60 + (if late then 2 ^ 63 else 0)))

/-- The streams of a path that a TRIGGER_ARM mask names: 2n + 1 for I→D, 2n for D→I (R267). -/
def triggerStreams (p dirs : Nat) : List Nat :=
  (if Nat.testBit dirs 0 then [2 * p + 1] else []) ++ (if Nat.testBit dirs 1 then [2 * p] else [])

/-- An action refused with a cause (R168, R175, R181, R597). -/
def actionRefused (n code cause : Nat) (s : State) : State := raiseD (srcPath n 13) (code + 256 * cause) s

/-- Why an action is refused at its fire instant, with the path that reports it (R181, R597). -/
def State.actRefusal (s : State) : Act → Option (Nat × Option Nat)
  | .modeSet p m => (s.modeRefusal p m).map (fun c => (c, some p))
  | .stimStart p _ => (s.stimRefusal p).map (fun c => (c, some p))
  | .markSend ip _ => (s.markRefusal ip).map (fun c => (c, s.pathOfI ip))
  | _ => none

/-- The path of the stream that an action names (R244); a stream of the roles 5 and 6 has none. -/
def State.pathOfStream (s : State) (k : Nat) : Option Nat := if s.stRole k ≤ 4 then some (s.stPath k) else none

/-- The path whose next boundary an action waits for (R62): none where it acts on no path, or at its fire instant (R22, R177), or
on a path that has no boundary to wait for, as R402 has it for an apply. A fan-out group counts as one path (R403). -/
def State.boundaryOf (s : State) (a : Act) : Option Nat :=
  let p := match a with
    | .captureOpen k _ | .captureClose k => s.pathOfStream k
    | .windowOpen n _ _ | .windowClose n _ => some n
    | .stimStop n | .trigger _ n _ => some n
    | .spareSwap ip _ _ => s.pathOfI ip
    | _ => none
  (p.map s.leadOf).filter (fun n => !s.switchesNow n)

/-- The entries of an action's own effect (R412, R413), in the state at its effect instant; `fired` is its fire instant. -/
def State.actEntries (s : State) (o : Origin) (late : Bool) (fired : Nat) (a : Act) : List LogReq :=
  match a with
  | .stageApply k retain bad => if bad then [] else [s.applyEntry o k retain]
  | .modeSet p m => [phaseEntry o p m.code ((modeSet p m s).pathAt p).phase.code 0]
  | .captureOpen k _ => [captureEntry o k 1 0]
  | .captureClose k => [captureEntry o k 2 1]
  | .windowOpen n c label =>
    if (s.ctxAt n c).waiting.isSome then [] else [windowEntry o n c label.toNat (if (s.ctxAt n c).isOpen then 2 else 1)]
  | .windowClose n c => if (s.ctxAt n c).isOpen then [] else [windowEntry o n c 0 3]
  | .spareSwap ip i out =>
    let r := s.swapRefusal ip i out fired
    [laneEntry o i ip (if r.isSome then 4 else 3) out (r.getD 0)]
  | .rekey step old new => [s.rekeyEntry o step old new]
  | .logMark v => [{ kind := 0x13, origin := o, target := 0, a := v, b := if late then 1 else 0 }]
  | .trigger arm p dirs => (triggerStreams p dirs).map (fun k => captureEntry o k (if arm then 3 else 4) 0)
  | _ => []

/-- A window action takes effect at once, or behind a close that waits for a bank (R62, R317). -/
def windowAct (w : WinAct) (n c : Nat) (f : State → State) (s : State) : State :=
  if (s.ctxAt n c).waiting.isSome then s.modCtx n c (fun x => { x with behind := x.behind ++ [w] }) else f s

/-- The effect of an action that was not refused at its fire instant `fired` (R58). -/
def actEffect (a : Act) (o : Origin) (late : Bool) (fired : Nat) (s : State) : State :=
  match a with
  | .nop _ | .logMark _ => s
  | .stageApply k retain bad => if bad then stageEcc k s else stageEffect k retain s
  | .modeSet p m => modeSet p m s
  | .captureOpen k limit => openStream k limit s
  | .captureClose k => closeCapture k s
  | .windowOpen n c label => windowAct ⟨true, label, o, fired, late⟩ n c (openWindow n c label late) s
  | .windowClose n c =>
    windowAct ⟨false, 0, o, fired, late⟩ n c
      (fun s => if (s.ctxAt n c).isOpen then closeWindow n c late s else notOpen n c s) s
  | .spareSwap ip i out =>
    match s.swapRefusal ip i out fired, s.pathOfI ip with
    | none, _ => doSwap ip i out s
    | some c, some n => actionRefused n a.code c s
    | some _, none => s
  | .rekey step old new => doRekey step old new s
  | .freeze on t => each (s.freezeLanes t) (freezeLane on) s
  | .stimStart p gen => startStim p gen s
  | .stimStop p => stopStim p s
  | .trigger arm p dirs =>
    each (triggerStreams p dirs) (fun k s =>
      if arm then armStream k s else if (s.strmAt k).armed then disarmStream k s else s) s
  | .markSend ip v =>
    s.sendFlit ip { typ := 7, path := (s.pathOfI ip).getD 0, payload := markPayload v late s.beatTime }

/-! ### Firing -/

/-- The SCHED_RETIRE entry (R413). -/
def retireEntry (o : Origin) (slot w2 how : Nat) (late : Bool) (cause : Nat) : LogReq :=
  { kind := 0x08, origin := o, target := slot, a := w2,
    b := how + (if late then 4 else 0) + 2 ^ 8 * o.code + 2 ^ 16 * o.inst + 2 ^ 24 * cause }

/-- Entries of a list of requests. -/
def reqSize (rs : List LogReq) : Nat := rs.foldl (fun a r => a + 1 + r.conts.length) 0

/-- All entries of a list of requests find normal room (R414, R415). -/
def State.roomFor (s : State) (rs : List LogReq) : Bool := decide (s.log.used + reqSize rs ≤ ringSize - ringReserve)

/-- An entry leaves its slot. -/
def freeSlot (slot : Nat) (s : State) : State := s.setSched slot {}

/-- An entry is retired without acting: 1 missed, 2 suppressed (R64, R66); event 2,251 tells the cores (R486). -/
def retireIdle (slot w2 how src : Nat) (o : Origin) (s : State) : State :=
  let r := retireEntry o slot w2 how false 0
  let s := freeSlot slot s
  deliver 2251 (raise (srcGlobal src) (s.logEvent r))

/-- The member's train state lets an entry fire (R66, R346); alone, or with the train unit off, every entry fires
(R350). -/
def State.trainAllows (s : State) (train : Bool) : Bool :=
  let t := s.trn
  if s.trainId = 0 || !s.trnEnable then true
  else if t.indexBad || t.indexUnconf then false
  else !train || !(t.digestBad || t.digestUnconf || t.masterSilent || t.masterNone || !t.heardMaster)

/-- The master's implied mode follows each train-scoped MODE_SET that fires (R344). -/
def imply (train : Bool) (a : Act) (s : State) : State :=
  match a with
  | .modeSet p m => if train && s.trainId == 0 then s.modTrn (fun t => { t with implied := t.implied.set .moored p m }) else s
  | _ => s

/-- An action reaches its effect instant (R62): its entries are committed together, and it takes effect only with them (R414). -/
def landAct (a : Act) (o : Origin) (late : Bool) (fired : Nat) (s : State) : State :=
  let reqs := s.actEntries o late fired a
  if s.roomFor reqs then actEffect a o late fired (reqs.foldl (fun s r => s.logPut r) s) else logRefused s

/-- The next boundary of path `p` (R62, R402): the first of what waits for it takes effect, and nothing else. -/
def switchPath (p : Nat) (s : State) : State :=
  match s.stg.switch.get [] p with
  | [] => s
  | x :: rest =>
    let s := { s with stg := { s.stg with switch := s.stg.switch.set [] p rest } }
    match x with
    | .writes ws => switchWrites p ws s
    | .act a o late fired => landAct a o late fired s
    | .mode =>
      let more := rest.any (fun y => match y with | .mode => true | _ => false)
      if more then s else s.modPath p (fun q => { q with runs := none })

/-- All that waits for boundaries of path `p` takes effect now, in firing order: what fired before a MODE_SET whose phase 1 begins
now (R62, R177). -/
def switchAll (p : Nat) (s : State) : State := (s.stg.switch.get [] p).foldl (fun s _ => switchPath p s) s

/-- An entry fires (R61, R62, R65, R66): it leaves its slot with its SCHED_RETIRE entry, and its action is refused, takes effect, or
waits for the next boundary of its path. Nothing of it happens without room for its entries. -/
def fireAct (slot w2 : Nat) (train : Bool) (o : Origin) (late : Bool) (a : Act) (s : State) : State :=
  if !s.trainAllows train then retireIdle slot w2 2 7 o s else
  let s := match a with | .modeSet p _ => (if s.switchesNow p then s else switchAll p s) | _ => s
  let rf := s.actRefusal a
  let retire := retireEntry o slot w2 0 late ((rf.map (·.1)).getD 0)
  let reqs := retire :: (if rf.isSome then [] else s.actEntries o late s.now a)
  let s := freeSlot slot s
  if !s.roomFor reqs then
    let r := retireEntry o slot w2 3 late 0
    let s := (s.commit r).getD s
    let s := { s with sched := { s.sched with refused := satAdd 65535 s.sched.refused 1 } }
    let s := match a with | .rekey .. => s.modEnv (fun e => { e with rkResult := 7 }) | _ => s
    deliver 2251 (raise (srcGlobal 8) (logRefused s))
  else
    let s := imply train a (s.logPut retire)
    match rf with
    | some (c, some n) => actionRefused n a.code c s
    | some (_, none) => s
    | none =>
      match s.boundaryOf a with
      | some p => waitAct p (.act a o late s.now) s
      | none => landAct a o late s.now s

/-- The schedule fires: LOCKED, and no Fatal (R50, R371). -/
def State.firing (s : State) : Bool := s.beat.st == .locked && !s.pwr.fatal && !s.still

/-- The firing of an action that a command states. -/
def fireCmd (f : Fire) (a : Act) (s : State) : State :=
  if s.firing then fireAct f.slot.val (a.w2 f.train) f.train f.origin f.late a s else s

/-- The beat time of an entry (R57). -/
def SchedEnt.time (e : SchedEnt) : Nat :=
  (e.w0.toNat + 2 ^ 32 * (e.w1.toNat % 65536)) * 4096 + e.w1.toNat / 2 ^ 20

/-- Insert a slot in firing order: ascending beat time, then ascending slot (R61). -/
def insertDue (x : Nat × Nat) : List (Nat × Nat) → List (Nat × Nat)
  | [] => [x]
  | y :: t => if x.1 < y.1 ∨ (x.1 = y.1 ∧ x.2 < y.2) then x :: y :: t else y :: insertDue x t

/-- The valid entries whose beat time passes a test, in firing order: beat time and slot. -/
def State.dueEntries (s : State) (f : Nat → Bool) : List (Nat × Nat) :=
  (s.sched.ent.entries.filter (fun e => e.2.valid && f e.2.time)).foldl (fun l e => insertDue (e.2.time, e.1) l) []

/-- Now is more than 64 ns past the nominal instant of a beat time, counted from local edge `e` of index `n` with period `p`
(R63). -/
def State.lateFor (s : State) (bt e n p : Nat) : Bool :=
  let nominal : Int := (e : Int) * 4096 + ((bt / 4096 : Nat) - (n : Int)) * p * 4096 + (bt % 4096) * p
  decide (nominal + 64 * ns * 4096 < (s.now : Int) * 4096)

/-- The entry in a slot fires, reckoned from a local edge (R61-R66). -/
def fireSlot (e n p : Nat) (x : Nat × Nat) (s : State) : State :=
  let en := s.schedAt x.2
  match actOf en.w2.toNat en.w3.toNat with
  | none => freeSlot x.2 s
  | some a => fireAct x.2 en.w2.toNat (Nat.testBit en.w2.toNat 30) en.origin (s.lateFor x.1 e n p) a s

/-- Fire a list of entries in order; firing stops when Fatal stops it (R371). -/
def fireAll (e n p : Nat) (l : List (Nat × Nat)) (s : State) : State :=
  l.foldl (fun s x => if s.pwr.fatal then s else fireSlot e n p x s) s

/-- Every valid entry whose beat time is at or before the current beat time fires (R61). -/
def fireDue (s : State) : State :=
  if !s.firing then s else
  let bt := s.beatTime
  fireAll s.beat.edge s.beat.index (s.beat.period.getD 0) (s.dueEntries (fun t => decide (t ≤ bt))) s

/-- Entries are retired as missed (R60, R64). -/
def retireMissed (l : List (Nat × Nat)) (s : State) : State :=
  l.foldl (fun s x => let e := s.schedAt x.2; retireIdle x.2 e.w2.toNat 1 6 e.origin s) s

/-! ### Loading and cancelling -/

/-- The horizon: (current or last accepted index + 2):0; none in NONE (R60). -/
def State.horizon (s : State) : Option Nat := if s.beat.st = .none then none else some ((s.beat.index + 2) * 4096)

/-- An earlier beat time than the horizon. -/
def State.beforeHorizon (s : State) (t : Nat) : Bool := match s.horizon with | none => false | some h => decide (t < h)

/-- The outcome of the checks of a load (R59). -/
def State.loadResult (s : State) (slot : Nat) (e : SchedEnt) : Nat :=
  if 0x10 ≤ e.w2.toNat / 2 ^ 20 % 256 then 3
  else if (s.schedAt slot).valid then 2
  else if s.beforeHorizon e.time then 1
  else if 64 ≤ (s.sched.ent.entries.filter (fun x => x.2.valid && x.2.time == e.time)).length then 4
  else 0

/-- Report the result of a load or cancel. -/
def schedResult (r : Nat) (s : State) : State := { s with sched := { s.sched with result := r } }

/-- A load (R57, R59, R60). -/
def schedLoad (o : Origin) (slot : Nat) (w0 w1 w2 w3 : Word) (s : State) : State :=
  let e : SchedEnt := { valid := true, w0 := w0, w1 := w1, w2 := w2 ||| 0x80000000#32, w3 := w3, origin := o }
  let r := s.loadResult slot e
  match s.commit { kind := 0x06, origin := o, target := slot, a := e.w2.toNat, b := w3.toNat, conts := [(w0.toNat, w1.toNat, r)] } with
  | none => schedResult 5 (logRefused s)
  | some s =>
    let s := schedResult r (if r = 0 then s.setSched slot e else s)
    if r = 1 then raise (srcGlobal 6) s else s

/-- A cancel (R59). -/
def schedCancel (o : Origin) (slot : Nat) (s : State) : State :=
  let e := s.schedAt slot
  let r := if !e.valid then 7 else if s.beforeHorizon e.time then 6 else 0
  match s.commit { kind := 0x07, origin := o, target := slot, a := e.w2.toNat, b := r } with
  | none => schedResult 5 (logRefused s)
  | some s => schedResult r (if r = 0 then freeSlot slot s else s)

end Sys2Proof.Machine
end

