-- ==== Sys2Proof/Machine/Beat.lean ====
section
/-! DEFINITION. The beat receiver and scheduler (R39-R56): frames, local edges, states, the learned period, catch-up (R63,
R64) and beat loss. -/

namespace Sys2Proof.Machine

/-! ### Frames -/

/-- Decode the half-cell levels of a frame with its sync's polarity; none for a frame that is not valid (R40-R47): index,
flags and inversion. -/
def decodeBeat (cells : BitVec 160) : Option (Nat × BitVec 8 × Bool) :=
  match burst (bitsOf 160 cells.toNat) with
  | none => none
  | some (inv, bits) =>
    if crc8 (bits.take 56) = ofBits (bits.drop 56) then
      some (ofBits (bits.take 48), BitVec.ofNat 8 (ofBits ((bits.drop 48).take 8)), inv)
    else none

/-- A frame arrives with its edge's mid-cell transition now (R43, R47, R48). -/
def beatReceive (cells : BitVec 160) (s : State) : State :=
  if s.inReset then s else
  match decodeBeat cells with
  | none =>
    let s := { s with beat := { s.beat with frameErr := satAdd 65535 s.beat.frameErr 1, gap := true } }
    raise (srcGlobal 2) s
  | some (i, f, inv) =>
    let d := s.bits 0x10014 7 0
    let e := s.now + (1310 + d) * ns
    { s with beat := { s.beat with pend := s.beat.pend ++ [{ index := i, flags := f, inverted := inv, edge := e, delay := d }] } }

/-! ### The local edge -/

/-- The index distance of a frame from the last accepted one. The spec does not say what follows the greatest index; the
distance is taken modulo 2^48 (DESIGN CHOICE, notes/assumptions/126.md). -/
def BeatSt.dist (b : BeatSt) (f : PendFrame) : Nat := (f.index + 2 ^ 48 - b.index) % 2 ^ 48

/-- A frame is continuous with the last accepted one (R50). R50 names no nearest integer for a frame that comes exactly half a
period between two; the model takes the upper one (DESIGN CHOICE, notes/assumptions/127.md). -/
def BeatSt.continuous (b : BeatSt) (f : PendFrame) : Bool :=
  b.dist f == 1 || (match b.period with
    | none => false
    | some p => let m := (2 * (f.edge - b.edge) + p) / (2 * p); decide (0 < p) && decide (1 ≤ m) && b.dist f == m)

/-- The frame's interval is a period (R52). -/
def BeatSt.measures (b : BeatSt) (f : PendFrame) : Bool :=
  (b.st == .acquiring || b.st == .locked) && b.dist f == 1 && !b.gap

/-- The state after an accepted frame (R51), given whether a learned period is in force with it. -/
def BeatSt.nextState (b : BeatSt) (cont hasPeriod : Bool) : BeatState :=
  match b.st with
  | .none => .acquiring
  | _ => if cont && hasPeriod then .locked else .acquiring

/-- A BEAT entry (R413). -/
def beatEntry (code new old : Nat) : LogReq := { kind := 0x18, origin := .hardware, target := code, a := new, b := old }

/-- A period differs from the learned one by more than 1/16 of it (R55). -/
def periodStep (net old : Nat) : Bool :=
  let d := if net < old then old - net else net - old
  decide (old < 16 * d)

/-- Entries that fire by catch-up at a continuous edge (R63, R64). -/
def catchUp (b : BeatSt) (newIndex : Nat) (s : State) : State :=
  fireAll b.edge b.index (b.period.getD 0) (s.dueEntries (fun t => decide (t < newIndex * 4096))) s

/-- An accepted frame's local edge (R48-R56, R60, R63, R64). `reached` is the beat time last reached before it. -/
def acceptFrame (f : PendFrame) (reached : Nat) (s : State) : State :=
  let b := s.beat
  let cont := b.st != .none && b.continuous f
  let iv := f.edge - b.edge
  let delay := f.delay
  let meas := b.measures f
  let net := iv + b.delay * ns - delay * ns
  let period := if meas then some iv else b.period
  let st := b.nextState cont period.isSome
  let step := meas && !b.flags.getLsbD 6 && (match b.perNet with | none => false | some p => periodStep net p)
  let user := BitVec.ofNat 4 f.flags.toNat
  let pol := b.hasPol && b.inverted != f.inverted
  let disc := (b.st == .locked || b.st == .lost) && !cont
  let s := { s with beat := { b with
    st := st, index := f.index, edge := f.edge, period := period, perNet := if meas then some net else b.perNet, delay := delay,
    gap := false, inverted := f.inverted, hasPol := true, flags := f.flags, user := user } }
  let s := if st = b.st then s else s.logEvent (beatEntry 1 st.code b.st.code)
  let s := if pol then s.logEvent (beatEntry 3 (if f.inverted then 1 else 0) (if b.inverted then 1 else 0)) else s
  let s := if user = b.user then s else s.logEvent (beatEntry 2 user.toNat b.user.toNat)
  let s := if st = .locked ∧ (s.srcAt (srcGlobal 0)).cond then condEnd (srcGlobal 0) s else s
  let s := if pol then raise (srcGlobal 3) s else s
  let s := if step then raise (srcGlobal 5) s else s
  let s := if disc then each paths (poisonPair · 3) (raise (srcGlobal 1) s) else s
  let s := trainEdge s
  if disc then
    if b.index < f.index then
      retireMissed (s.dueEntries (fun t => decide (reached < t) && decide (t < f.index * 4096))) s
    else s
  else if b.st = .acquiring ∧ st = .locked then retireMissed (s.dueEntries (fun t => s.beforeHorizon t)) s
  else if st = .locked then
    fireDue (if s.firing then catchUp b f.index s else s)
  else s

/-- The oldest frame's local edge, if it has come (R48, R51). -/
def localEdge (s : State) : State :=
  match s.beat.pend with
  | [] => s
  | f :: t =>
    if s.now < f.edge then s else
    let reached := State.beatTime { s with now := f.edge }
    let s := { s with beat := { s.beat with pend := t } }
    if s.inReset then s
    else if s.beat.st != .none && decide (f.edge < s.beat.edge + 1900 * ns) then
      raise (srcGlobal 4) { s with beat := { s.beat with short := satAdd 65535 s.beat.short 1 } }
    else acceptFrame f reached s

/-! ### Loss -/

/-- The beat is lost at an instant: 2.5 learned periods, or 2.5 s with none, without a valid frame (R51). -/
def State.beatGone (s : State) : Bool :=
  let b := s.beat
  (b.st == .acquiring || b.st == .locked) && decide (2 * b.edge + 5 * (b.period.getD (1000 * ms)) ≤ 2 * s.now)

/-- LOST is entered (R46, R50, R51, R56). -/
def loseBeat (s : State) : State :=
  let b := s.beat
  let held := s.beatTime
  let s := { s with beat := { b with st := .lost, held := held } }
  let s := s.logEvent (beatEntry 1 3 b.st.code)
  let s := if b.flags.getLsbD 7 then s.logEvent (beatEntry 4 (b.index % 2 ^ 32) 0) else s
  raise (srcGlobal 0) s

/-! ### Commands -/

/-- BEAT_FRAME (R40): half-cell levels with cell 0's first half in bit 159; `t` is the mid-cell transition of cell 16. -/
def execBeatFrame (t : Nat) (cells : BitVec 160) := live (fun s => beatReceive cells (s.at t))

/-- LOCAL_BEAT_EDGE (R48). -/
def execLocalBeatEdge (t : Nat) := live (fun s => localEdge (s.at t))

/-- BEAT_LOSS (R51). -/
def execBeatLoss (t : Nat) := live (fun s =>
  let s := s.at t
  if s.beatGone && !s.inReset then loseBeat s else s)

end Sys2Proof.Machine
end

