-- ==== Sys2Proof/Machine/Journal.lean ====
section
/-! DEFINITION. Journal commits and the resumption of the Spool from the journal (R263, R277, R279), which the resets share. -/

namespace Sys2Proof.Machine

/-! ### Commits -/

/-- The entries of every stream as the next commit writes them: the records written to HBM become accepted with it (R263, R276). -/
def State.commitEntries (s : State) : Tbl (List Byte) :=
  (s.streamsOf (fun _ => true)).foldl (fun t k =>
    let x := s.strmAt k
    t.set [] k (s.journalEntry k ((x.written.filter (fun r => r.kind != 0x0B)).foldl (fun a r => max a r.seq) x.accepted))) s.spl.jrn

/-- The 64-byte header of commit `no` (R277): the commit number, the beat time and the CRC-64 over all 1,024 entries, in that order
from byte 0 (DESIGN CHOICE, notes/assumptions/148.md). -/
def State.commitHead (s : State) (no : Nat) (es : Tbl (List Byte)) : List Byte :=
  bytesOf 8 no ++ bytesOf 8 s.stamp.toNat
    ++ bytesOf 8 (crc64 ((List.range 1024).flatMap (fun k => fit 32 0 (es.get (s.journalEntry k 0) k)))) ++ List.replicate 40 0

/-- A journal commit begins: it covers the records of every stream that are written to HBM (R263, R277). -/
def beginCommit (s : State) : State :=
  let es := s.commitEntries
  let hd := s.commitHead (s.spl.commitNo + 1) es
  let s := each (s.streamsOf (fun _ => true)) (fun k s => s.modStrm k (fun x =>
    { x with inCommit := x.written.length })) s
  s.modSpl (fun x => { x with commitNo := x.commitNo + 1, committing := true, commitDue := s.now + 2 * us, jrn := es, jrnHead := hd })

/-- The records of stream `k` that the commit covers become accepted (R263); LOG records take their entries from the ring
(R410). -/
def acceptWritten (k : Nat) (s : State) : State :=
  let x := s.strmAt k
  let recs := (x.written.take x.inCommit).map (fun r => { r with accAt := s.now })
  let s := s.modStrm k (fun x => { x with
    written := x.written.drop x.inCommit, inCommit := 0, window := x.window ++ recs,
    accepted := (recs.filter (fun r => r.kind != 0x0B)).foldl (fun a r => max a r.seq) x.accepted })
  if k = 1022 then recs.foldl (fun s r => if r.kind = 0x07 then acceptLog r s else s) s else s

/-- A journal commit completes on the copies that were written (R277): a copy not written raises the journal source of its
stack, H0 for copy A and H2 for copy B. With neither, nothing becomes accepted. -/
def endCommit (okA okB : Bool) (s : State) : State :=
  if !s.spl.committing then s else
  let s := s.modSpl (fun x =>
    let c : JrnCopy := { no := x.commitNo, intact := true, head := x.jrnHead, ents := x.jrn }
    { x with committing := false, copyA := if okA then c else { x.copyA with intact := false },
             copyB := if okB then c else { x.copyB with intact := false } })
  let s := if okA then s else raise (srcHbm 0 12) s
  let s := if okB then s else raise (srcHbm 2 12) s
  if okA || okB then each (s.streamsOf (fun _ => true)) acceptWritten s
  else each (s.streamsOf (fun _ => true)) (fun k s => s.modStrm k (fun x => { x with inCommit := 0 })) s

/-! ### Resumption -/

/-- Stream `k` resumes from its journal entry (R279): records beyond accepted are discarded, the drain restarts at
durable + 1, and the next record admitted carries the resumed flag. -/
def resumeStream (k : Nat) (s : State) : State :=
  let s := s.modStrm k (fun x => { x with
    cur := none, evRec := none, evSkip := 0, skip := 0, staged := [], uncommitted := [], written := [], inCommit := 0,
    next := x.accepted + 1, rowNext := ((x.window.getLast?).map (fun r => r.row + 1)).getD x.rowNext, draining := 0, drainPad := false,
    drainOn := 0, drainGot := 0,
    nextFlags := x.nextFlags ||| 8, ahead := [] })
  if k = 1022 then { s with log := { s.log with recorded := 0 } } else s

/-- The records of stream `k` accepted after the newest snapshot are undelivered and are reported by sequence range
(R279). -/
def fallToSnapshot (k : Nat) (s : State) : State :=
  let x := s.strmAt k
  if x.accepted ≤ x.snapAcc then s else
  let s := s.modStrm k (fun x => { x with accepted := x.snapAcc, window := x.window.filter (fun r => decide (r.seq ≤ x.snapAcc)) })
  s.logEvent (reportStream k (x.snapAcc + 1) x.accepted)

/-- The Spool resumes after a device reset or a reset of its domain (R279), from the copy with the highest commit number whose CRC
passes: its entries are those that the device holds on die (DEDUCED, notes/assumptions/148.md). A copy that fails raises the journal
source of its stack (R294). -/
def resumeSpool (s : State) : State :=
  let ks := s.streamsOf (fun _ => true)
  let s := match s.spl.copyA.intact, s.spl.copyB.intact with
    | true, true => s
    | true, false => raise (srcHbm 2 12) s
    | false, true => raise (srcHbm 0 12) s
    | false, false => each ks fallToSnapshot (raise (srcHbm 2 13) (raise (srcHbm 0 13) s))
  let s := each ks resumeStream s
  s.modSpl (fun x => { x with committing := false, preload := none, preAsked := 0 })

end Sys2Proof.Machine
end

