-- ==== Sys2Proof/Machine/Reset.lean ====
section
/-! DEFINITION. The reset levels below power-on as shared operations: path, Gondola, domain and device reset (R33, R183,
R329, R433-R438, R483, R501). -/

namespace Sys2Proof.Machine

/-- The RESET entry (R413). -/
def State.resetEntry (s : State) (o : Origin) (level tgt : Nat) : LogReq :=
  let rc := s.flt.resetCause.toNat
  { kind := 0x19, origin := o, target := level, a := if rc / 2 ^ 95 = 1 then rc / 2 ^ 64 % 4096 else 2 ^ 32 - 1, b := tgt }

/-! ### Path reset -/

/-- The lanes of the ports of path `n`. -/
def State.pathLanes (s : State) (n : Nat) : List Nat := s.dLanes n ++ s.ownI n

/-- Source `src` returns to IDLE at a path reset, logged as acknowledged by hardware (R359). -/
def resetSource (src : Nat) (s : State) : State :=
  let x := s.srcAt src
  let s := if x.st = 0 then s
    else clearSource src (s.logEvent { kind := 0x0B, origin := .hardware, target := src, a := x.st })
  s.modSrc src (fun x => { x with cond := false, under := 0 })

/-- A lane of a path that is reset (R97, R100): a shorted transmitter and a stopped receiver are released. -/
def resetLane (l : Nat) (s : State) : State :=
  s.modLane l (fun x => { x with
    txHiZ := false, clean := 0, txIdle := true, eligible := false, anchor := .search, cut := x.cut &&& 0xF6,
    sense := x.sense &&& 0xFFFF0300 })

/-- A reset of path `n` (R183, R329, R359, R437): the path's windows end, its streams resume from the journal, its sources
and its lanes' sources return to IDLE, its status fields are cleared, held definitions take effect, and it is brought up
in its mode once nothing holds it. -/
def pathReset (n : Nat) (s : State) : State :=
  if !s.pathEn n then s else
  let s := each ((List.range 16).map (srcPath n) ++ (s.pathLanes n).flatMap (fun l => (List.range 10).map (srcLane l)))
    resetSource s
  let s := endWindows n 14 s
  let s := stopStim n s
  let s := each (s.streamsOf (fun k => s.stEn k && s.stPath k == n)) resumeStream s
  let s := each (s.pathLanes n) resetLane s
  let s := if s.pathLead n = n then s.modPort (s.pathI n) (fun p => { p with cnt := {} }) else s
  let s := if s.pathLead n = n ∧ (s.pathAt n).mode.family then
      stopTunnel n s else s
  let s := releaseReset n s
  let s := s.modPath n (fun p => { p with
    trans := none, pendMode := none, pendRetrain := none, retrain := false, ladStop := false, dOut := 0, timeline := none,
    packBits := [], packArr := [], splCause := 0, hits := [0, 0, 0, 0], skp := 0, laneOrder := 0, retimer := 0,
    iTrain := 0, dTrain := 0, kindI := 0, kindD := 0 })
  if (s.pathAt n).safe then
    let s := s.modPath n (fun p => { p with upPend := true })
    if (s.pathAt n).holds.isEmpty then bringUp .hardware 4 n (s.modPath n (fun p => { p with safe := false })) else s
  else bringUp .hardware 4 n s

/-! ### Core and Gondola reset -/

/-- Lock `n` is taken from its holder (R378, R483, R487). -/
def forceRelease (n : Nat) (s : State) : State :=
  s.modLock n (fun l => { l with holder := none, revoked := l.holder })

/-- A DEBUG entry (R524): command or event code, status, its detail and argument words. -/
def State.debugEntry (s : State) (code status hi a b : Nat) : LogReq :=
  { kind := 0x10, origin := .debug, hi := hi, a := a, b := b,
    target := code + 2 ^ 8 * (if s.dbg.isOpen then s.dbg.level else 0) + 2 ^ 16 * status }

/-- Core `c` starts again at the firmware entry point; with its bit in the halt-on-start mask it halts there (R483, R522,
R524). -/
def coreStart (c : Nat) (s : State) : State :=
  let h := Nat.testBit s.dbg.hos.toNat c
  let s := s.modCore c (fun x => { resets := x.resets, epoch := x.epoch + 1, wdt := if h then 0 else s.now, halted := h, cause := if h then 4 else 0 })
  if h then s.logEvent (s.debugEntry 0x81 0 0 0 0) else s

/-- A reset of core `c` alone (R483): its locks are released, its pending events are gone, and core_fault is raised. -/
def coreReset (c : Nat) (s : State) : State :=
  let held := (List.range 16).filter (fun n => match (s.gon.lock.get {} n).holder with
    | some (.core d) => d.val == c
    | _ => false)
  let s := each held (fun n s => raise (srcGlobal 58) (forceRelease n s)) s
  let s := coreStart c s
  raise (srcGlobal (52 + c)) (s.modCore c (fun x => { x with resets := x.resets + 1 }))

/-- An image update in progress ends with a result, and is logged (R398). -/
def endUpdate (r : Nat) (s : State) : State :=
  if !s.gon.upd.running then s else
  let u := s.gon.upd
  let s := s.modGon (fun g => { g with upd := { g.upd with running := false, result := r, bytes := [] } })
  s.logEvent { kind := 0x11, origin := u.origin, target := u.chip, a := u.generation.toNat, b := r }

/-- Registers whose address meets `f` take their reset values. -/
def resetRegs (f : Nat → Bool) (s : State) : State :=
  { s with regs := { s.regs with file := s.regs.file.keep (fun a => !f a) } }

/-- A Gondola reset (R437, R501): cores, caches, data RAM, event controller, mailboxes and locks are cleared and the GON
block takes its reset values, but for the patch units; code RAM, patch RAM and patches stay. -/
def gondolaReset (s : State) : State :=
  let s := (endUpdate 6 s).modEnv (fun e => { e with auto := none })
  let s := resetRegs (fun a => 0x70000 ≤ a && a < 0x71000) s
  let s := s.modGon (fun g => { g with
    lock := {}, mb := {}, fwReady := false, eccAddr := 0, eccCount := 0, eccMem := 0, dropped := 0, postResult := 0,
    data := {}, dataPoison := {}, pkg := [], cause := 1, muxAsk := none,
    mgmt := { stuck := g.mgmt.stuck } })
  each [0, 1, 2, 3] coreStart s

/-! ### Messages of device firmware -/

/-- The 256 bytes of a mailbox message (R494). -/
def msgBytes (m : MbMsg) : List Byte :=
  [m.service, m.kind] ++ bytesOf 2 m.tag.toNat ++ [m.status, m.rsv5] ++ bytesOf 2 m.length.toNat ++ fit 8 0 m.rsv8 ++ fit 240 0 m.body

/-- The path whose I port carries a running link on slot `ip`. -/
def State.linkPath (s : State) (ip : Nat) : Option Nat := if (s.portAt ip).up then s.pathOfI ip else none

/-- A response or notification joins the outbound queue of mailbox `m`; on a link it is queued as a MAILBOX flit. A message of a
mailbox that no longer exists is counted (R495). -/
def mbSend (m : Nat) (msg : MbMsg) (s : State) : State :=
  let put (s : State) : State := s.modMb m (fun b => { b with outQ := b.outQ ++ [msg] })
  if m = 0 then put s
  else match s.linkPath (m - 1) with
    | some n => (put s).sendCtrl n 6 (msgBytes msg)
    | none => s.modGon (fun g => { g with dropped := satAdd 65535 g.dropped 1 })

/-- A message of device firmware. -/
def fwMsg (service : Byte) (kind : Byte) (tag : BitVec 16) (status : Nat) (body : List Byte) : MbMsg :=
  { service := service, kind := kind, tag := tag, status := BitVec.ofNat 8 status, rsv5 := 0, length := BitVec.ofNat 16 body.length,
    rsv8 := List.replicate 8 0, body := fit 240 0 body }

/-- A response to a request (R494, R497). -/
def respond (m : Nat) (req : MbMsg) (status : Nat) (body : List Byte) (s : State) : State :=
  mbSend m (fwMsg req.service 1 req.tag status body) s

/-! ### Domain reset -/

/-- Paths with a lane among those that meet `f`. -/
def State.pathsWith (s : State) (f : Nat → Bool) : List Nat :=
  paths.filter (fun n => s.pathEn n && (s.dLanes n ++ s.iLanes n).any f)

/-- The path holds HBM slots. -/
def State.usesHbm (s : State) (n : Nat) : Bool := decide (0 < s.pathSlots n)

/-- The paths that a reset of domain `d` puts in their safe state (R424). -/
def State.domainPaths (s : State) (d : Nat) : List Nat :=
  let en := paths.filter s.pathEn
  if d < 128 then (s.pathOfLane d).toList
  else if d < 160 then s.pathsWith (fun l => decide (l / 4 = d - 128))
  else if d < 180 then []
  else if d < 188 then s.pathsWith (fun l => decide (l / 32 = (d - 180) / 2))
  else if d < 192 then s.pathsWith (fun l => decide (l / 32 = d - 188))
  else if d = 193 then en.filter (fun n => (s.pathAt n).mode.family)
  else if d = 194 then en.filter (fun n => !(s.streamsOf (fun k => s.stEn k && s.stPath k == n && (s.strmAt k).busy)).isEmpty)
  else if d = 195 then en.filter (fun n => (s.pathAt n).mode.compares)
  else if d = 200 then en.filter s.usesHbm
  else []

/-- The store port with a lane of domain `d` trains anew after the domain's reset (R111, R424). -/
def storeRetrain (d : Nat) (s : State) : State :=
  let p := if d < 176 then (d - 160) / 8 else (d - 176) / 2
  retrainLanes ((List.range 8).map (128 + 8 * p + ·)) false { s with sto := { s.sto with up := s.sto.up &&& ~~~BitVec.ofNat 2 (2 ^ p) } }

/-- Domains that Ripcord never resets (R430). -/
def protectedDomain (d : Nat) : Bool := d == 192 || d == 202 || d == 205

/-- The reset of domain `d` is asserted (R33, R424, R430, R438): its paths enter their safe state and recover as after a path
reset; a reset asserted again runs from the later instant. The FAULT flit of such a safe state names the source domain_reset,
which the spec does not say (DESIGN CHOICE, notes/assumptions/54.md). -/
def domainAssert (d : Nat) (s : State) : State :=
  let s := s.modDom d (fun x => { x with inReset := true, since := s.now })
  let s := { s with flt := { s.flt with domReset := s.flt.domReset ||| BitVec.ofNat 206 (2 ^ d) } }
  let s := each (s.domainPaths d) (fun n s =>
    (enterSafe n (.domain d) { source := srcGlobal 35, cls := 0 } true s).modPath n (fun p => { p with upPend := true })) s
  if 160 ≤ d ∧ d < 180 then storeRetrain d s
  else if d = 194 then discardStaging s
  else if d = 195 then each paths (fun n s => takeAll n 7 s) s
  else if d = 201 then gondolaReset s
  else if d = 203 then endUpdate 6 s
  else s

/-- The multiplexer of domain `d` passes input `i` (R428): a transmit domain's quad reports it (R554). -/
def muxTo (d i : Nat) (s : State) : State :=
  let s := s.modDom d (fun x => { x with input := i, switching := none })
  if 128 ≤ d ∧ d < 160 then s.modQuad (d - 128) (fun q => { q with input := i })
  else if 176 ≤ d ∧ d < 180 then s.modQuad (d - 144) (fun q => { q with input := i })
  else s

/-- The reset of domain `d` ends: its paths lose that holding cause (R364), and a switch that hung leaves the reset with its
new input selected (R430). -/
def domainEnd (d : Nat) (s : State) : State :=
  let x := s.domAt d
  let s := muxTo d (x.switching.getD x.input) (s.modDom d (fun x => { x with inReset := false }))
  let s := { s with flt := { s.flt with domReset := s.flt.domReset &&& ~~~BitVec.ofNat 206 (2 ^ d) } }
  let s := if x.switching.isSome then s.modGon (fun g => { g with muxResult := 3 }) else s
  let s := match s.gon.muxAsk with
    | some (m, k, msg) =>
      if k = d ∧ x.switching.isSome then respond m msg 6 [3] (s.modGon (fun g => { g with muxAsk := none })) else s
    | none => s
  let s := if d = 194 then resumeSpool s else s
  each paths (fun n => unhold n (.domain d)) s

/-! ### Device reset -/

/-- A lane at device reset (R103, R435): transmitter at high impedance, termination open, no port. -/
def laneOff (x : LaneSt) : LaneSt :=
  { x.wskStop false with
           st := .unassigned, exiting := false, anchor := .search, eligible := false, identOk := false, txIdle := true,
           txHiZ := false, clean := 0, frozen := false, freezePend := false, margin := false, rxInv := false, pos := none, orderDone := false, misses := 0,
           precRx := false, precTx := false, txMem := 0, rxMem := 0, cut := 0, bound := 0, sense := x.sense &&& 0xFFFF0000 }

/-- Device reset entry (R435): the paths go safe, a journal commit completes, staging is discarded, Reel and HBM are
retained, lanes and pins go to their reset state, the AVS loop stops and the key slots are cleared (R445, R461). After a
clock loss HBM already rests, and no commit is made. -/
def deviceEntry (byPin byClock : Bool) (s : State) : State :=
  let s := each (paths.filter s.pathEn) (fun n s =>
    if byClock then (let s := s.addHold n .reset; if (s.pathAt n).safe then s else safeDatapath n s)
    else enterSafe n .reset { source := srcGlobal 82, cls := 0, device := true } true s) s
  let s := if !byClock then endCommit true true (beginCommit s) else s
  let s := discardStaging s
  let s := each [0, 1, 2, 3] (fun h s => s.modHbm h (fun x => { x with selfRefresh := true })) s
  let s := each (s.lane.entries.map (·.1)) (fun l s => s.modLane l laneOff) s
  let s := s.modEnv (fun e => { e with cleared := true, rkState := if e.rkState = 1 then 2 else e.rkState, rkHeld := e.rkState = 1 })
  s.modPwr (fun p => { p with dev := true, devByPin := byPin, devSince := s.now, avsRun := false, steps := 0 })

/-- A path slot that keeps only what a device reset retains (R236, R437): the next interval to play and the number of the
interval being packed. Its mode comes from the image again. -/
def PathSt.retained (p : PathSt) : PathSt :=
  { playNext := p.playNext, packK := p.packK, packOff := p.packOff, capK := p.capK }

/-- A port that keeps its link state (R236). -/
def PortSt.retained (p : PortSt) : PortSt :=
  { lad := { stored := p.lad.stored }, link := { p.link with tunnel := 0, tunMsg := none, naks := [], ackDue := false,
                                                             echoAns := none, echoDue := false } }

/-- Device reset clears or restores what R437 lists: registers to their reset values before the image reload, Ripcord, beat,
schedule, stage sets, train and verdict state, Gondola. The session, fuses, straps, Logbook, journal, key store, Reel and
Fatal latch stay. -/
def deviceClear (s : State) : State :=
  let s := resetRegs (fun _ => true) s
  let s := gondolaReset s
  let trn := { heartbeat := 0, fwVersion := s.trn.fwVersion : TrnSt }
  let s := { s with
    regs := { s.regs with old := {} }, beat := {}, sched := {}, stg := {}, vrd := {}, trn := trn, ltr := {},
    flt := { resetCause := s.flt.resetCause },
    path := s.path.map {} PathSt.retained, port := s.port.map {} PortSt.retained, lane := s.lane.map {} laneOff }
  s.modGon (fun g => { g with cause := 2, unit := {}, patch := {}, code := {}, codePoison := {} })

end Sys2Proof.Machine
end

