-- ==== Sys2Proof/Machine/Clock.lean ====
section
/-! DEFINITION. Clock multiplexers and quad clocks as shared operations (R101, R428-R432), and the eligibility of lanes
(R102, R169). -/

namespace Sys2Proof.Machine

/-! ### Eligibility of lanes -/

/-- Raise source `i` of R100 for lane `l`; a store lane's sources are grouped (R295, R357). -/
def laneRaise (l i : Nat) (s : State) : State :=
  if l < 128 then raise (srcLane l i) s else
  let g (k : Nat) (b : Option Nat) (s : State) : State := raiseGroup (srcStore (4 * (l - 128) + k)) b s
  match i with
  | 0 => g 0 (some 0) s
  | 1 => g 0 none s
  | 2 => g 0 (some 1) s
  | 3 => g 1 (some 0) s
  | 4 => g 1 (some 1) s
  | 6 => g 2 (some 0) s
  | 8 => g 2 none s
  | 9 => g 3 none s
  | _ => s

/-- The condition of source `i` of lane `l` ends. -/
def laneEnd (l i : Nat) (s : State) : State :=
  if l < 128 then condEnd (srcLane l i) s else
  let g (k b : Nat) (s : State) : State := groupEnd (srcStore (4 * (l - 128) + k)) b s
  match i with
  | 0 => g 0 0 s
  | 2 => g 0 1 s
  | 3 => g 1 0 s
  | 4 => g 1 1 s
  | 6 => g 2 0 s
  | _ => s

/-- Raise source `i` of R101 for quad `q` (R352, R295). -/
def quadRaise (q i : Nat) (s : State) : State :=
  if q < 32 then raise (srcQuad q i) s else raiseGroup (srcStore (64 + (q - 32))) (if i < 2 then some i else none) s

/-- The conditions pll_unlock and clock_monitor of quad `q` end. -/
def quadEnd (q : Nat) (s : State) : State :=
  if q < 32 then condEnd (srcQuad q 1) (condEnd (srcQuad q 0) s)
  else groupEnd (srcStore (64 + (q - 32))) 1 (groupEnd (srcStore (64 + (q - 32))) 0 s)

/-- The lane is cut off (R102): bits 0-5 of its conditions, or an unusable fuse word. -/
def LaneSt.cutOff (x : LaneSt) : Bool := (x.cut &&& 0x3F) != 0 || x.fuseBad

/-- Nothing but its lock and identity keeps lane `l` from eligibility. -/
def State.sound (s : State) (l : Nat) : Bool :=
  let x := s.laneAt l
  x.cut == 0 && !x.fuseBad && !(s.quadAt (l / 4)).noClock && x.st == .run

/-- Lane `l` stops being eligible; one of a spare pool leaves it, one of an active set is dropped by LANE_DROP (R165). -/
def loseLane (l : Nat) (s : State) : State :=
  let s := s.modLane l (fun x => { x with eligible := false })
  match (if l < 64 then s.portOfLane l else none) with
  | none => s
  | some (ip, k) => s.modPort ip (fun p =>
      if hasBit p.pool k then { p with pool := p.pool &&& ~~~posBit k, dropped := p.dropped ||| posBit k } else p)
where
  hasBit (m : BitVec 18) (k : Nat) : Bool := Nat.testBit m.toNat k

/-- Lane `l` becomes eligible; a dropped one joins the spare pool (R169). -/
def gainLane (l : Nat) (s : State) : State :=
  let s := s.modLane l (fun x => { x with eligible := true })
  match (if l < 64 then s.portOfLane l else none) with
  | none => s
  | some (ip, k) => s.modPort ip (fun p =>
      if p.up && Nat.testBit p.dropped.toNat k then { p with dropped := p.dropped &&& ~~~posBit k, pool := p.pool ||| posBit k } else p)

/-- A condition `b` cuts lane `l` off (R102). -/
def cutLane (l b : Nat) (s : State) : State := loseLane l (s.modLane l (fun x => { x with cut := x.cut ||| BitVec.ofNat 8 (2 ^ b) }))

/-- Condition `b` of lane `l` has ended; with nothing left against it, a lane whose lock and identity still hold is eligible
again (R81, R102). -/
def uncutLane (l b : Nat) (s : State) : State :=
  let s := s.modLane l (fun x => { x with cut := x.cut &&& ~~~BitVec.ofNat 8 (2 ^ b) })
  let x := s.laneAt l
  if s.sound l && (decide (64 ≤ l) || (x.anchor == .locked && x.identOk)) then gainLane l s else s

/-- The anchor lock machine of lane `l` returns to SEARCH (R80). -/
def dropLock (l : Nat) (s : State) : State := loseLane l (s.modLane l (fun x => { x with anchor := .search, misses := 0 }))

/-! ### Clock domains -/

/-- Transmit domain of quad `q`, receive domain of lane `l` (R424). -/
def txDom (q : Nat) : Nat := if q < 32 then 128 + q else 176 + (q - 32)
def rxDom (l : Nat) : Nat := if l < 128 then l else 160 + (l - 128)

/-- The input exists for the domain (R428). -/
def hasInput (d i : Nat) : Bool := i < 2 || (i == 2 && ((128 ≤ d && d < 160) || (176 ≤ d && d < 180)))

/-- The missing-edge monitor of input `i` of domain `d` reports edges. -/
def State.toggles (s : State) (d i : Nat) : Bool := Nat.testBit (s.domAt d).mon.toNat i

/-- The quad whose transmit clock a lane or quad domain carries. -/
def quadOfDom (d : Nat) : Option Nat :=
  if d < 128 then some (d / 4) else if d < 160 then some (d - 128)
  else if d < 176 then some (32 + (d - 160) / 4) else if d < 180 then some (32 + (d - 176)) else none

/-- Quad `q` transmits again from a locked PLL (R101): a lane that needs no anchor is eligible again, an I lane at its anchor
lock. -/
def quadRuns (q : Nat) (s : State) : State :=
  let s := quadEnd q (s.modQuad q (fun x => { x with noClock := false }))
  each ((quadLanes q).filter (64 ≤ ·)) (fun l s => if s.sound l then gainLane l s else s) s

/-- Quad `q` transmits again, from its partner's PLL (R101, R432). -/
def quadMoved (q : Nat) (s : State) : State := quadRuns q (s.modQuad q (fun x => { x with input := 2 }))

/-- Domain `d` leaves a switch with input `i` selected; an input that does not run leaves the domain stopped (R431). -/
def switched (d i : Nat) (s : State) : State :=
  let s := muxTo d i s
  if !s.toggles d i then
    match quadOfDom d with
    | some q => quadRaise q 1 (s.modQuad q (fun x => { x with noClock := true }))
    | none => raise (srcGlobal 33) s
  else match quadOfDom d with
    | some q => if i = 2 ∧ d = txDom q then quadMoved q s else s
    | none => s

/-- A glitch-free switch of domain `d` to input `i` begins (R428). Between running clocks it completes within two periods of
each; otherwise it waits for a low phase that does not come. -/
def beginSwitch (d i : Nat) (s : State) : State :=
  if s.toggles d (s.domAt d).input && s.toggles d i then switched d i s
  else s.modDom d (fun x => { x with switching := some i, since := s.now })

/-- The result of a switch request of domain `d` to input `i` (R429, R438): 1 refused, 2 busy. -/
def State.switchResult (s : State) (d i : Nat) : Nat :=
  if 206 ≤ d || protectedDomain d || !hasInput d i then 1
  else if (s.domAt d).switching.isSome || (s.domAt d).inReset then 2 else 0

/-- A switch request (R429). -/
def requestSwitch (d i : Nat) (s : State) : State :=
  let r := s.switchResult d i
  let s := s.modGon (fun g => { g with muxResult := r })
  if r = 0 then beginSwitch d i s else s

/-- A domain reset ends with the multiplexer on its new input (R430, R431), and raises domain_reset; a quad leaves the
condition that needed its reset (R101). -/
def domainRelease (d : Nat) (s : State) : State :=
  let i := ((s.domAt d).switching).getD (s.domAt d).input
  let hung := (s.domAt d).switching.isSome
  let s := domainEnd d s
  let s := if hung then raise (srcGlobal 35) (switched d i s) else s
  if (128 ≤ d ∧ d < 160) ∨ (176 ≤ d ∧ d < 180) then
    let q := (quadOfDom d).getD 0
    let s := s.modQuad q (fun x => { x with cfgEcc := false })
    each (quadLanes q) (fun l s => uncutLane l 7 s) s
  else s

/-! ### Quad clocks -/

/-- The quads of a pair run one rate (R34, R432), by their assigned lanes. -/
def State.oneRate (s : State) (q : Nat) : Bool :=
  let rs := ((quadLanes q ++ quadLanes (q ^^^ 1)).filter (fun l => (s.laneAt l).st != .unassigned)).map s.curRate
  rs.all (fun r => some r == rs.head?)

/-- The transmit clock of quad `q` has no locked, toggling source: source `i` of R101. Its lanes lose eligibility, and
hardware moves its domains to the partner quad's PLL where both quads run one rate (R432). -/
def quadLoss (q i : Nat) (s : State) : State :=
  let s := quadRaise q i (s.modQuad q (fun x => { x with noClock := true }))
  let s := each (quadLanes q) (fun l s => if l < 64 then dropLock l s else loseLane l s) s
  if (s.quadAt q).input ≠ 2 && s.oneRate q && (s.quadAt (q ^^^ 1)).pll && s.toggles (txDom q) 2
      && s.switchResult (txDom q) 2 == 0 then
    each (txDom q :: (quadLanes q).map rxDom) (fun d s => beginSwitch d 2 s) s
  else s

/-- The quads that are clocked from the PLL of quad `q`. -/
def State.clockedFrom (s : State) (q : Nat) : List Nat :=
  (if (s.quadAt q).input = 2 then [] else [q]) ++ (if (s.quadAt (q ^^^ 1)).input = 2 then [q ^^^ 1] else [])

end Sys2Proof.Machine
end

