-- ==== Sys2Proof/Machine/Ladder.lean ====
section
/-! DEFINITION. The speed ladder of an I port as shared operations (R141-R151, R164, R236, R237): its steps, its messages,
its fall-back and its end. -/

namespace Sys2Proof.Machine

/-! ### Fields -/

/-- QLE_LADDER fields of I-port slot `ip` (R546). -/
def State.ladLead (s : State) (ip : Nat) : Bool := s.hwBit (aQle ip) 11
def State.ladMax (s : State) (ip : Nat) : Nat := s.hwBits (aQle ip) 9 8
def State.ladPreset (s : State) (ip : Nat) : Nat := s.hwBits (aQle ip) 16 14
def State.fecMax (s : State) (ip : Nat) : Nat := (s.hw (aQle ip + 4)).toNat

/-- The rate can suffice: its need is neither 0 nor above the lane count (R149). -/
def State.suffices (s : State) (ip r : Nat) : Bool := s.needAt ip r != 0 && decide (s.needAt ip r ≤ s.ipLanes ip)

/-- Lanes with which a step passes at rate `r` (R149). -/
def State.stepNeed (s : State) (ip r : Nat) : Nat := if s.suffices ip r then s.needAt ip r else 1

/-- The eligible positions whose lane meets `f`. -/
def State.passing (s : State) (ip : Nat) (f : Nat → Bool) : BitVec 18 :=
  posMask ((positions (s.portAt ip).lad.eligible).filter (fun k => f (s.ipLane ip k)))

/-- The anchor of the lane is LOCKED with its identity checked. -/
def State.anchored (s : State) (l : Nat) : Bool := (s.laneAt l).anchor == .locked && (s.laneAt l).identOk

/-- The lane may carry flits (R81): it is LOCKED, the identity of its last match passed, and nothing cuts it off (R100). -/
def State.mayCarry (s : State) (l : Nat) : Bool := s.anchored l && s.sound l

/-- The taps of a Qormos preset (R146). -/
def presetTaps (n : Nat) : List Int :=
  match n with
  | 1 => [0, 0, 0, 64, 0, 0]
  | 2 => [0, 0, 0, 56, -8, 0]
  | 3 => [0, 0, -4, 52, -8, 0]
  | 4 => [0, 0, -8, 48, -8, 0]
  | 5 => [0, 2, -10, 44, -8, 0]
  | 6 => [-2, 4, -12, 40, -6, 0]
  | _ => [0, 0, -12, 44, -4, -4]

/-! ### Messages -/

/-- The port sends a ladder message until it is answered (R147). -/
def ladSend (ip op rate : Nat) (mask : BitVec 18) (s : State) : State :=
  s.modLad ip (fun l => { l with sends := l.sends.filter (fun m => m.1 != op) ++ [(op, rate, mask)],
                                 sendDue := l.sendDue.set 0 op 0x3FFFF, sentAt := s.now })

/-- A message was answered. -/
def ladAnswered (ip op : Nat) (s : State) : State :=
  s.modLad ip (fun l => { l with sends := l.sends.filter (fun m => m.1 != op) })

/-- Step `k` begins. -/
def ladStep (ip k : Nat) (s : State) : State := s.modLad ip (fun l => { l with step := k, since := s.now })

/-- The ladder of a port is in one of its steps, and no safe state of its path stops it (R153). -/
def State.climbing (s : State) (ip : Nat) : Bool :=
  decide (1 ≤ (s.portAt ip).lad.step) && decide ((s.portAt ip).lad.step ≤ 7)
    && !((s.pathOfI ip).map (fun n => (s.pathAt n).ladStop)).getD false

/-- A climbing ladder that no HOLD of the partner pauses (R153). -/
def State.advances (s : State) (ip : Nat) : Bool := s.climbing ip && (s.portAt ip).lad.hold.isNone

/-! ### Failure -/

/-- The ladder of a port fails: the path raises training_fail (R119, R149). -/
def ladFail (ip : Nat) (s : State) : State :=
  let s := s.modLad ip (fun l => { l with step := 9, sends := [], changing := none, hold := none })
  match s.pathOfI ip with
  | none => s
  | some n =>
    let s := s.modPath n (fun p => { p with iTrain := 3 })
    if (s.pathAt n).miscI then s else raise (srcPath n 6) s

/-- A note of the path that owns a port: speed_fallback (R119). -/
def slowFallback (ip : Nat) (s : State) : State :=
  match s.pathOfI ip with
  | none => s
  | some n => raise (srcPath n 14) s

/-- The idle of a rate change to rate `r` begins (R148). -/
def ladChange (ip r : Nat) (s : State) : State :=
  let s := each ((s.ipPositions ip).map (s.cfgLane ip)) (fun l s =>
    dropLock l ((s.modLane l (fun x => { x with txIdle := true, txMem := 0, rxMem := 0 })).modLtr l (fun t => { t with prbs := [] }))) s
  ladStep ip 2 (s.modLad ip (fun l => { l with
    changing := some r, sends := [], precReq := none, precPeer := none, precAck := none, precAcked := false,
    testOwn := none, testPeer := none }))

/-- A step failed (R149, R177): a resumption runs the full ladder; otherwise the port falls back one rate once. -/
def ladFallback (ip : Nat) (s : State) : State :=
  let l := (s.portAt ip).lad
  if l.resumed then startLadder ip s
  else if l.fellBack then ladFail ip s
  else
    let s := slowFallback ip s
    if l.rate ≤ 1 then ladFail ip s
    else ladChange ip (l.rate - 1) (s.modLad ip (fun l => { l with fellBack := true, eligible := l.below }))

/-! ### The end -/

/-- The device sends RESUME for a retained link state (R236, R237): the interval that it wants next, and the hold. In a mode
outside the Guard family the retained I→D DATA flits are freed and reported (R238). -/
def sendResume (n : Nat) (s : State) : State :=
  let ip := s.pathI n
  let guard := (s.pathAt n).mode.guardFam
  let s := if guard then s else
    if ((s.portAt ip).link.cells.filter (fun c => c.typ = 1)).isEmpty then s
    else reportCells n { source := srcGlobal 85, cls := 0 } s
  let plan := s.resumePlan n
  let s := s.modLink ip (fun l => { l with tunnel := 2, resGot := false, resAcked := false })
  tunnelMsg ip 3 0 (if guard then plan.1 else 0) (if guard then plan.2 else 0) s

/-- After DONE the link starts or resumes (R235, R236); a Guard-family path then trains its D side, and a Drive-family path is
STEADY with its D lanes on the fill pattern (R114, R177). -/
def afterDone (n : Nat) (s : State) : State :=
  let fresh := (s.portAt (s.pathI n)).link.fresh
  let s := if fresh then startTunnel n s else sendResume n s
  if (s.pathAt n).mode.guardFam then setPhase .hardware 0 n .train (startD n s)
  else steady (if (s.pathAt n).retrain then 1 else 0) n (fillSites n (s.pathAt n).retrain s)

/-- The ladder ends at its present rate (R149, R164): the active set and the spare pool are formed. -/
def ladDone (ip : Nat) (s : State) : State :=
  let l := (s.portAt ip).lad
  let ks := (positions l.eligible).filter (fun k => s.mayCarry (s.ipLane ip k))
  if !s.suffices ip l.rate || ks.length < s.needAt ip l.rate then ladFail ip s else
  let order := ks.filter (fun k => decide (k < s.ipActive ip)) ++ ks.filter (fun k => decide (s.ipActive ip ≤ k))
  let size := max (s.ipActive ip) (s.needAt ip l.rate)
  let s := s.modPort ip (fun p => { p with
    lad := { p.lad with step := 8, stored := some l.rate, hold := none, changing := none, resumed := false,
                        sends := p.lad.sends.filter (fun m => m.1 == 8) },
    up := true, active := posMask (order.take size), pool := posMask (order.drop size),
    dropped := posMask ((s.ipPositions ip).filter (fun k => !order.contains k)), link := { p.link with heardAt := s.now } })
  let s := each (order.map (s.ipLane ip)) (fun k s => s.modLane k (fun x => { x with eligible := true })) s
  match s.pathOfI ip with
  | none => s
  | some n => afterDone n (s.modPath n (fun p => { p with iTrain := 2 }))

/-! ### Steps 4 to 7 -/

/-- After step 6 or a fall-back the leader offers the next rate or ends the ladder (R148, R149). -/
def ladNext (ip : Nat) (s : State) : State :=
  let l := (s.portAt ip).lad
  let s := ladStep ip 7 s
  if !s.ladLead ip then s
  else if l.fellBack ∨ l.ceiling ≤ l.rate then ladDone ip (ladSend ip 8 l.rate l.eligible s)
  else ladSend ip 5 (l.rate + 1) 0 s

/-- A step ends with the positions that passed it (R148, R149). -/
def ladPassed (ip : Nat) (mask : BitVec 18) (next : State → State) (s : State) : State :=
  let l := (s.portAt ip).lad
  if s.stepNeed ip l.rate ≤ popCount mask then next (s.modLad ip (fun l => { l with eligible := mask }))
  else ladFallback ip s

/-- Step 6 begins: the leader sends TEST_START (R151). After a fall-back the steps end with step 5 (R149). -/
def ladTest (ip : Nat) (s : State) : State :=
  let l := (s.portAt ip).lad
  if l.fellBack then ladNext ip s
  else
    let s := ladStep ip 6 (s.modLad ip (fun l => { l with testing := s.ladLead ip }))
    if s.ladLead ip then ladSend ip 3 l.rate 0 s else s

/-- Precoding is agreed both ways and in force on every granted lane (R148, R150). -/
def State.precoded (s : State) (ip : Nat) : Bool :=
  let l := (s.portAt ip).lad
  match l.precPeer, l.precAck with
  | some tx, some rx => (positions l.eligible).all (fun k =>
      (s.laneAt (s.ipLane ip k)).precTx == Nat.testBit tx.toNat k && (s.laneAt (s.ipLane ip k)).precRx == Nat.testBit rx.toNat k)
  | _, _ => false

/-- Step 5 ends when precoding is agreed and in force. -/
def precodeCheck (ip : Nat) (s : State) : State :=
  if (s.portAt ip).lad.step = 5 && s.advances ip && s.precoded ip then ladTest ip s else s

/-- The positions whose receiver requests precoding (R127, R150). -/
def State.precodeWant (s : State) (ip : Nat) : BitVec 18 :=
  s.passing ip (fun l => s.wantsPrecode l (s.ltrAt l).h1Large)

/-- Step 5 begins: PRECODE is sent (R150). -/
def ladPrecode (ip : Nat) (s : State) : State :=
  let want := s.precodeWant ip
  ladSend ip 1 (s.portAt ip).lad.rate want (ladStep ip 5 (s.modLad ip (fun l => { l with precReq := some want })))

/-- Step 4 ends once every eligible lane is LOCKED with its identity checked (R148); a resumption after WAKE ends there
(R177). -/
def anchorsDone (ip : Nat) (s : State) : State :=
  let l := (s.portAt ip).lad
  if l.step = 4 ∧ s.advances ip ∧ l.eligible ≠ 0 ∧ s.passing ip s.anchored = l.eligible then
    if l.resumed then ladDone ip s else ladPrecode ip s
  else s

/-- A partner that goes on after HOLD: the time-outs run again, and what the ladder met meanwhile counts (R153). -/
def endHold (ip : Nat) (s : State) : State :=
  match (s.portAt ip).lad.hold with
  | none => s
  | some t => precodeCheck ip (anchorsDone ip (s.modLad ip (fun l => { l with hold := none, since := l.since + (s.now - t) })))

/-- Step 6 ends when both ends' results are known: a lane passes only if both directions pass (R148, R151). -/
def testCheck (ip : Nat) (s : State) : State :=
  let l := (s.portAt ip).lad
  match l.testOwn, l.testPeer with
  | some a, some b =>
    let m := a &&& b &&& l.eligible
    ladPassed ip m (fun s => ladNext ip (s.modLad ip (fun l => { l with below := m }))) s
  | _, _ => s

/-! ### Line events -/

/-- A D→I line event of path `n` reaches the capture streams and the tunnel (R139, R223, R259). -/
def lineUp (n : Nat) (ev : List Byte) (s : State) : State := (captureEvent n 1 ev s).sendCtrl n 1 ev

/-- The D-port lane of path `n` that is lane `l`. -/
def State.dPos (s : State) (n l : Nat) : Nat := l - (64 + s.dpFirst (s.pathD n))

/-- A transmitter of lane `l` looked for a receiver (R128): in Pass the termination of the same lane on the other side
follows the result; in the Guard family a D-side result goes up the tunnel. -/
def reportDetect (l : Nat) (found : Bool) (s : State) : State :=
  match s.pathOfLane l with
  | none => s
  | some n =>
    let p := s.pathAt n
    if s.dpFamily (s.pathD n) ≠ 0 then s
    else if p.mode = .pass then
      let other := if l < 64 then ((s.portOfLane l).map (fun x => 64 + s.dpFirst (s.pathD n) + x.2)).getD l
                   else s.ipLane (s.pathI n) (s.dPos n l)
      s.modLtr other (fun x => { x with opened := !found })
    else if p.mode.guardFam && decide (64 ≤ l) && (s.portAt (s.pathI n)).up then
      let m := (s.dLanes n).foldl (fun a d => if (s.ltrAt d).detected then a ||| 2 ^ s.dPos n d else a) 0
      lineUp n (s.eventNow n 3 m 0) s
    else s

/-! ### After WAKE -/

/-- WAKE of path `n` ends when none of its lanes still leaves Moored (R105, R177), but not in its safe state (R183): a port with a stored result at the rate of
its lanes, which suffices, resumes from anchor lock; any other path begins its bring-up. -/
def wakeDone (n : Nat) (s : State) : State :=
  let ls := s.dLanes n ++ s.iLanes n
  if (s.pathAt n).phase ≠ .wake || (s.pathAt n).safe || ls.any (fun l => (s.laneAt l).exiting) then s else
  let s := s.modPath n (fun p => { p with trans := none })
  let ip := s.pathI n
  let fits (r : Nat) : Bool := s.suffices ip r && (s.iLanes n).all (fun l => s.laneRate l == qRate r)
  match (s.portAt ip).lad.stored with
  | some r =>
    if (s.pathAt n).mode.family && s.pathLead n == n && fits r then
      let s := startLadder ip s
      let s := each (s.iLanes n) (fun l s => s.modLtr l (fun x => { x with sends := 0, switched := true })) s
      let s := ladStep ip 4 (s.modLad ip (fun l => { l with
        rate := r, ceiling := r, eligible := posMask (s.ipPositions ip), resumed := true }))
      setPhase .hardware 0 n .ladder (s.modPath n (fun p => { p with iTrain := 1 }))
    else bringUp .hardware 0 n s
  | none => bringUp .hardware 0 n s

end Sys2Proof.Machine
end

