-- ==== Sys2Proof/Machine/Reel.lean ====
section
/-! DEFINITION. Reel and the D→I packing: the units and cells of a path (R185, R210, R211), reads of a cell (R214), and the DATA flits
that line bits leave in (R215, R221, R222, R224). -/

namespace Sys2Proof.Machine

/-! ### Regions -/

/-- Bits per second of the I port of path `n` at its highest allowed rate, in units of 10 Mb/s. -/
def State.portRate (s : State) (n : Nat) : Nat := s.ipActive (s.pathI n) * rate10 (qRate (s.ladMax (s.pathI n)))

/-- Reel units of path `n` in the direction `dir` (R184, R185): the largest need over its allowed modes. A member of a fan-out group
has none: its lead holds what they share. -/
def State.reelUnits (s : State) (n : Nat) (dir : Dir) : Nat :=
  let m (b : Nat) : Bool := Nat.testBit (s.pathModes n) b
  let guard := m 2 || m 3 || m 4
  let drive := m 5 || m 6
  let k := s.repStream n
  let bits := match dir with
    | .toD =>
      let g := if guard then s.portRate n * (s.ballast n / ns) / 100 else 0
      let d := if drive && s.stEn k && s.stRole k == 4 then
          s.dpWidth (s.pathD n) * rate10 (s.laneRate (64 + s.dpFirst (s.pathD n))) * 40 else 0
      max g d
    | .toI => if guard || drive then s.portRate n * s.rtNs (s.pathI n) / 100 else 0
  if s.pathLead n = n then (bits + 524287) / 524288 else 0

/-- Cells in a Reel unit (R211). -/
def unitCells : Nat := 227

/-- Cells of path `n` for I→D and for D→I (R211). -/
def State.toDCells (s : State) (n : Nat) : Nat := unitCells * s.reelUnits n .toD
def State.toICells (s : State) (n : Nat) : Nat := unitCells * s.reelUnits n .toI

/-- Macro and byte offset of copy A of effective unit `u` (R210). -/
def reelCopyA (u : Nat) : Nat × Nat := (u / 8, u % 8 * 65536)

/-- Macro and byte offset of copy B of effective unit `u` (R210). -/
def reelCopyB (u : Nat) : Nat × Nat := (32 + (u / 8 + 1) % 32, u % 8 * 65536)

/-- The first effective unit of path `n` in a direction: the enabled paths take their units in slot order, I→D before D→I (DESIGN
CHOICE, notes/assumptions/135.md). -/
def State.reelBase (s : State) (n : Nat) (dir : Dir) : Nat :=
  let below := ((List.range n).filter s.pathEn).foldl (fun a m => a + s.reelUnits m .toD + s.reelUnits m .toI) 0
  match dir with
  | .toD => below
  | .toI => below + s.reelUnits n .toD

/-- Where copy A of a cell of path `n` lies (R210, R211): its macro, and the byte address of the cell in Reel. -/
def State.cellPlace (s : State) (n : Nat) (dir : Dir) (cell : Nat) : Nat × Nat :=
  let a := reelCopyA (s.reelBase n dir + cell / unitCells)
  (a.1, a.1 * 524288 + a.2 + cell % unitCells * 288)

/-- The lowest cell of a region of `c` cells that none of `used` holds. -/
def freeCell (c : Nat) (used : List Nat) : Nat := ((List.range c).find? (fun i => !used.contains i)).getD 0

/-- A read of a Reel cell at a place, whose copy A is uncorrectable or in which a word was corrected (R214). A corrected word is
counted by its address, an uncorrectable copy A that copy B replaces against its macro. -/
def reelRead (place : Nat × Nat) (r : ReelRead) (s : State) : State :=
  let s := match r.corrected with
    | none => s
    | some w =>
      let a := place.2 + 8 * (w % 36)
      { s with reel := { s.reel with corrected := s.reel.corrected.set 0 a (s.reel.corrected.get 0 a + 1) } }
  if !r.badA || r.badB then s else
  raise (srcGlobal 31)
    { s with reel := { s.reel with errs := s.reel.errs.set 0 place.1 (s.reel.errs.get 0 place.1 + 1), lastMacro := place.1 } }

/-! ### Sources -/

/-- link_error of path `n` (R241). -/
def linkError (n : Nat) (s : State) : State := raise (srcPath n 4) s

/-! ### Packing -/

/-- Bits of each lane appended to those of each lane. -/
def appendLanes : List (List Bool) → List (List Bool) → List (List Bool)
  | [], b => b
  | a, [] => a
  | x :: a, y :: b => (x ++ y) :: appendLanes a b

/-- How many bits every lane has. -/
def shortest (b : List (List Bool)) : Nat :=
  match b with
  | [] => 0
  | x :: t => t.foldl (fun m y => min m y.length) x.length

/-- The payload of a DATA flit with `m` bits of each lane (R221); a short flit names its offset (R222). -/
def dataPayload (bits : List (List Bool)) (m : Nat) (short : Option Nat) : List Byte :=
  let body := bits.flatMap (fun l => fit m false l)
  match short with
  | none => packBits 256 body
  | some off => packBits 252 body ++ bytesOf 2 off ++ bytesOf 2 m

/-- D→I cells of path `n` that are taken: unresolved flits, and DATA flits that wait (R211, R215). -/
def State.toIUsed (s : State) (n : Nat) : Nat :=
  let l := (s.portAt (s.pathI n)).link
  l.unres.length + (l.wait.filter (fun f => f.typ = 1)).length

/-- What is left of the arrivals of unsent bits when the first `m` of each lane have left. -/
def dropArr : Nat → List (Nat × Nat) → List (Nat × Nat)
  | _, [] => []
  | m, x :: t => if x.1 ≤ m then dropArr (m - x.1) t else (x.1 - m, x.2) :: t

/-- The next `m` bits of the interval being packed leave as a DATA flit, or join the run of intervals that are not carried
(R215, R222). -/
def emitData (n m : Nat) (s : State) : State :=
  let p := s.pathAt n
  let l := intervalBits (s.dpWidth (s.pathD n))
  let short := if m = l then none else some p.packOff
  let f : TxFlit := { typ := 1, flags := BitVec.ofNat 8 (p.packK % 128 + (if short.isSome then 128 else 0)), path := n,
                      payload := dataPayload p.packBits m short, interval := p.packK, poison := p.packPoison }
  let whole := decide (l ≤ p.packOff + m)
  let s := s.modPath n (fun p => { p with
    packBits := p.packBits.map (fun b => b.drop m), packArr := dropArr m p.packArr,
    packOff := if whole then 0 else p.packOff + m, packK := if whole then (p.packK + 1) % 2 ^ 32 else p.packK })
  if s.toICells n ≤ s.toIUsed n then
    let fresh := p.lostRun.isNone
    let s := s.modPath n (fun q => { q with lostRun := some ((p.lostRun.map (·.1)).getD p.packK, p.packK) })
    if fresh then linkError n s else s
  else (reportRun n { source := srcPath n 4, cls := (s.srcAt (srcPath n 4)).cls } s).sendFlit (s.pathI n) f

/-- Every interval that is complete leaves (R222): whole, or what is left of it in at most two short flits. -/
def packWhole : Nat → Nat → State → State
  | 0, _, s => s
  | f + 1, n, s =>
    let p := s.pathAt n
    let w := s.dpWidth (s.pathD n)
    let l := intervalBits w
    let need := l - p.packOff
    if l = 0 || shortest p.packBits < need then s
    else if p.packOff = 0 then packWhole f n (emitData n l s)
    else packWhole f n (emitData n (min need (2016 / w)) s)

/-- Every lane of the D port of path `n` receives electrical idle (R224). -/
def State.dIdle (s : State) (n : Nat) : Bool :=
  let all := BitVec.ofNat 16 (2 ^ s.dpWidth (s.pathD n) - 1)
  all != 0 && (s.pathAt n).eiToI &&& all == all

/-- D→I bits of path `n` are packed now (R139, R179, R224). -/
def State.packs (s : State) (n : Nat) : Bool :=
  let p := s.pathAt n
  p.mode.guardFam && (s.portAt (s.pathI n)).link.tunnel == 1 && !p.safe && p.phase != .drain
    && (s.dpFamily (s.pathD n) != 1 || p.segReady) && !s.dIdle n

/-- Line bits of every lane join what is unsent, and whole intervals leave (R222); poisoned bits poison the flits that they leave in
(R365). -/
def packIn (n : Nat) (bits : List (List Bool)) (poison : Bool) (s : State) : State :=
  if !s.packs n then s else
  let p := s.pathAt n
  let all := appendLanes p.packBits bits
  let more := shortest all - shortest p.packBits
  packWhole (2 + shortest all) n (s.modPath n (fun q => { q with
    packBits := all, packArr := if more = 0 then q.packArr else q.packArr ++ [(more, s.now)],
    packPoison := poison || (q.packPoison && !q.packArr.isEmpty) }))

/-- What is unsent leaves in short flits: the last lane of path `n` goes into electrical idle (R222, R224). -/
def packRest : Nat → Nat → State → State
  | 0, n, s => s.modPath n (fun p => { p with packBits := [], packArr := [] })
  | f + 1, n, s =>
    let p := s.pathAt n
    let w := s.dpWidth (s.pathD n)
    let m := min (shortest p.packBits) (min (intervalBits w - p.packOff) (2016 / w))
    if m = 0 then s.modPath n (fun p => { p with packBits := [], packArr := [] }) else packRest f n (emitData n m s)

end Sys2Proof.Machine
end

