-- ==== Sys2Proof/Machine/Segment.lean ====
section
/-! DEFINITION. The two ends of a lane's coefficient training: the transmitter that answers its partner's requests (R86, R87,
R117, R124, R145) and the receiver that makes its own within its bounds (R116, R118, R145), for the three families; the
pseudo-ports of a PCIe path (R112, R120) and the precoded line (R73, R92). -/

namespace Sys2Proof.Machine

/-! ### Sides of a path -/

/-- Lane `k` of a side of path `n`. -/
def State.sideLane (s : State) (n : Nat) (side : Side) (k : Nat) : Nat :=
  match side with
  | .dSide => 64 + s.dpFirst (s.pathD n) + k
  | .iSide => s.ipLane (s.pathI n) k

/-- The lanes of a side. -/
def State.sideLanes (s : State) (n : Nat) (side : Side) : List Nat :=
  (List.range (s.dpWidth (s.pathD n))).map (s.sideLane n side)

/-- The side's pseudo-port is electrical (R112): the D side, and the I side in Pass. -/
def State.electrical (s : State) (n : Nat) (side : Side) : Bool := side == .dSide || (s.pathAt n).mode == .pass

/-- The side holds the DPP (R120). -/
def State.isDpp (s : State) (n : Nat) (side : Side) : Bool := (s.dutRole n == 0) == (side == .dSide)

/-- The path is a PCIe path that takes part in training (R112, R155). -/
def State.pciePath (s : State) (n : Nat) : Bool :=
  s.pathEn n && s.dpFamily (s.pathD n) == 0 && ((s.pathAt n).mode == .pass || (s.pathAt n).mode.guardFam)

/-- The path is an Ethernet path that takes part in training. -/
def State.ethPath (s : State) (n : Nat) : Bool :=
  s.pathEn n && s.dpFamily (s.pathD n) == 1 && ((s.pathAt n).mode == .pass || (s.pathAt n).mode.guardFam)

/-- The side of its path that lane `l` belongs to. -/
def laneSide (l : Nat) : Side := if l < 64 then .iSide else .dSide

/-- The pseudo-port of lane `l` is a DPP: on a path as R120 gives it; a store lane is a root port's (R111). -/
def State.laneDpp (s : State) (l : Nat) : Bool :=
  if 128 ≤ l then true else ((s.pathOfLane l).map (fun n => s.isDpp n (laneSide l))).getD false

/-- Lanes of path `n` whose bit is set in a D-port lane mask, on a side. -/
def State.maskLanes (s : State) (n : Nat) (side : Side) (mask : Nat) : List Nat :=
  ((List.range (s.dpWidth (s.pathD n))).filter (fun k => Nat.testBit mask k)).map (s.sideLane n side)

/-- Transmitters of a side leave electrical idle, but not in the safe state (R106); the precoder starts anew (R73). -/
def wakeTx (n : Nat) (side : Side) (mask : BitVec 16) (s : State) : State :=
  if (s.pathAt n).safe then s else
  each (s.maskLanes n side mask.toNat) (fun l s => s.modLane l (fun x => { x with txIdle := false, txMem := 0 })) s

/-- The D lanes of a mask enter and leave electrical idle as the instrument's controller asks (R129). -/
def eiEnter (n : Nat) (mask : BitVec 16) (s : State) : State :=
  let s := s.modPath n (fun x => { x with eiToD := x.eiToD ||| mask })
  each (s.maskLanes n .dSide mask.toNat) (fun l s => s.modLane l (fun x => { x with txIdle := true })) s
def eiExit (n : Nat) (mask : BitVec 16) (s : State) : State :=
  wakeTx n .dSide mask (s.modPath n (fun x => { x with eiToD := x.eiToD &&& ~~~mask }))

/-! ### The precoded line -/

/-- A received level with its polarity corrected (R92). -/
def flipLevel (pam4 : Bool) (v : Nat) : Nat := if pam4 then 3 - v else 1 - v

/-- The levels of line bits, one bit or two to a symbol (R72). -/
def levelsOfBits (pam4 : Bool) (bs : List Bool) : List Nat :=
  if pam4 then grayLevels bs else bs.map (fun b => if b then 1 else 0)

/-- The line bits of levels (R72). -/
def bitsOfLevels (pam4 : Bool) (lv : List Nat) : List Bool :=
  if pam4 then lv.flatMap (fun x => [(grayBits x).1, (grayBits x).2]) else lv.map (fun v => v != 0)

/-- The levels that the transmitter of lane `l` sends for content levels, with the precoder memory after them (R73, R93). -/
def State.sendLevels (s : State) (l : Nat) (lv : List Nat) : List Nat × Nat :=
  let x := s.laneAt l
  let y := if x.precTx then precode x.txMem lv else lv
  (if s.txFlips l then y.map (flipLevel (isPam4 (s.curRate l))) else y, y.getLastD x.txMem)

/-- The content levels of levels received on lane `l`, with the precoder memory after them (R73, R92, R93). -/
def State.recvLevels (s : State) (l : Nat) (lv : List Nat) : List Nat × Nat :=
  let x := s.laneAt l
  let y := if s.rxFlips l (s.rawLane l) then lv.map (flipLevel (isPam4 (s.curRate l))) else lv
  (if x.precRx then unprecode x.rxMem y else y, y.getLastD x.rxMem)

/-- Line bits received on lane `l` as content bits, with the precoder memory after them. A bit left of a symbol stays as it
is. -/
def State.recvBits (s : State) (l : Nat) (bs : List Bool) : List Bool × Nat :=
  let pam4 := isPam4 (s.curRate l)
  let r := s.recvLevels l (levelsOfBits pam4 bs)
  (bitsOfLevels pam4 r.1 ++ bs.drop (bitsOfLevels pam4 r.1).length, r.2)

/-! ### The transmitter -/

/-- A coefficient of the partner in FS = 48 units as a tap: round(64 c / 48) (R86). -/
def fsTap (c : Nat) : Int := (8 * c + 3) / 6

/-- FS and LF that the device reports (R86, R124). -/
def ownFs : Nat := 48
def ownLf : Nat := 16

/-- The transmitter of lane `l` takes a tap set, or the set is refused (R83). Answers whether it took it. -/
def takeTaps (l : Nat) (c : List Int) (s : State) : Bool × State :=
  if tapsOk c then (true, s.modLane l (fun x => { x with taps := c })) else (false, tapRefused l s)

/-- The PCIe transmitter of lane `l` applies the preset of its partner (R124, R134). -/
def pcieTakes (l preset : Nat) (s : State) : State :=
  if (s.laneAt l).frozen || s.fixedTaps l then s
  else (takeTaps l (Config.pciePreset preset) (s.modLtr l (fun t => { t with preset := preset }))).2

/-- The PCIe transmitter of lane `l` answers a request (R83, R86, R87, R117, R124): it applies a preset or coefficients and reports
them, or reports the requested values with Reject. -/
def pcieAnswer (l : Nat) (ts : TsSet) (s : State) : State :=
  let c := ts.coef
  let want := if ts.usesCoef then [0, 0, -fsTap c.1.toNat, fsTap c.2.1.toNat, -fsTap c.2.2.toNat, 0]
              else Config.pciePreset ts.preset.val
  let r := if (s.laneAt l).frozen || s.fixedTaps l then (false, s) else takeTaps l want s
  r.2.modLtr l (fun t => { t with
    ansCoef := c, ansReject := !r.1, preset := if r.1 && !ts.usesCoef then ts.preset.val else t.preset })

/-- The two bits of tap `i` (0 = c_m3) in a 12-bit per-tap field. -/
def tapBits (v i : Nat) : Nat := v / 4 ^ (5 - i) % 4

/-- A 12-bit per-tap field. -/
def tapField (f : Nat → Nat) : Nat := (List.range 6).foldl (fun a i => a * 4 + f i) 0

/-- The change that two bits of a request ask for (R144). -/
def tapMove (b : Nat) : Int := if b = 1 then 1 else if b = 2 then -1 else 0

/-- The outcome of a Qormos request on taps `c`: the taps, tap_status and whether R83 refused it (R117, R144, R145). -/
def tapRequest (held : Bool) (preset req : Nat) (c : List Int) : List Int × Nat × Bool :=
  let asked (i : Nat) : Bool := preset ≠ 0 || tapMove (tapBits req i) != 0
  let want := if preset ≠ 0 then presetTaps preset else
    (List.range 6).map (fun i => c.getD i 0 + tapMove (tapBits req i))
  let status (v : Nat) : Nat := tapField (fun i => if asked i then v else 0)
  if held then (c, status 3, false)
  else if tapsOk want then (want, status 1, false)
  else (c, status 2, true)

/-- The Ethernet transmitter of lane `l` answers a request of steps for c(-3) to c(+2) (R86, R87, R117): "coefficient not updated"
while frozen, "at limit" with fixed taps, for c(+2), and where R83 would be crossed. -/
def ethAnswer (l : Nat) (steps : List Int) (s : State) : State :=
  let x := s.laneAt l
  let want := (List.range 6).map (fun i => x.taps.getD i 0 + (if i < 5 then max (-1) (min 1 (steps.getD i 0)) else 0))
  let asked (i : Nat) : Bool := steps.getD i 0 != 0
  let status (v : Nat) : BitVec 12 := BitVec.ofNat 12 (tapField (fun i => if !asked i then 0 else if i = 5 then 2 else v))
  if x.frozen then s.modLtr l (fun t => { t with tapStatus := 0 })
  else if s.fixedTaps l then s.modLtr l (fun t => { t with tapStatus := status 2 })
  else
    let r := takeTaps l want s
    r.2.modLtr l (fun t => { t with tapStatus := status (if r.1 then 1 else 2) })

/-! ### The receiver's own requests -/

/-- The families of R86. -/
inductive TapFamily where
  | pcie | ethernet | qormos
deriving DecidableEq, Repr, Inhabited

/-- The handshake in which the receiver of lane `l` may ask its partner for changes now (R124, R138, R145, R148), if any. -/
def State.asks (s : State) (l : Nat) : Option TapFamily :=
  let t := s.ltrAt l
  let phase : Bool := !t.eqDone && t.eqPhase == some (if s.laneDpp l then 3 else 2)
  if 128 ≤ l then (if phase then some .pcie else none) else
  match s.pathOfLane l with
  | none => none
  | some n =>
    if l < 64 ∧ (s.pathAt n).mode.family then
      if s.advances (s.pathI n) ∧ (s.portAt (s.pathI n)).lad.step = 3 then some .qormos else none
    else if s.pciePath n then (if phase then some .pcie else none)
    else if s.ethPath n ∧ (if l < 64 then (s.pathAt n).iTrain else (s.pathAt n).dTrain) = 1 then some .ethernet
    else none

/-- Byte `i` of LANE_REQBOUND (R553). -/
def State.reqByte (s : State) (l i : Nat) : Nat :=
  s.bits (laneBase l + 0x20 + i / 4 * 4) (8 * (i % 4) + 6) (8 * (i % 4))

/-- A magnitude bound in the partner's coefficient space: floor(m x FS / 64) on PCIe (R116). -/
def boundIn (fam : TapFamily) (fs m : Nat) : Int := if fam = .pcie then (m * fs / 64 : Nat) else m

/-- The wanted taps c(-3) to c(+2) brought within LANE_REQBOUND (R116). -/
def State.reqClamp (s : State) (l : Nat) (fam : TapFamily) (want : List Int) : List Int :=
  let b (i : Nat) : Int := boundIn fam (s.ltrAt l).peerFs (s.reqByte l i)
  let mag (m w : Int) : Int := max (-m) (min m w)
  [mag (b 0) (want.getD 0 0), mag (b 1) (want.getD 1 0), mag (b 2) (want.getD 2 0), max (b 5) (want.getD 3 0),
   mag (b 3) (want.getD 4 0), mag (b 4) (want.getD 5 0)]

/-- One step of a tap from `c` toward `w` (R118). -/
def stepToward (c w : Int) : Int := if c < w then c + 1 else if w < c then c - 1 else c

/-- A preset may be requested (R116): PCIe presets by preset_mask, Qormos presets whose taps keep the bounds. -/
def State.presetAllowed (s : State) (l : Nat) (fam : TapFamily) (n : Nat) : Bool :=
  match fam with
  | .pcie => decide (n ≤ 10) && s.bit (laneBase l + 0x24) (16 + n)
  | .qormos => decide (1 ≤ n) && decide (n ≤ 7) && s.reqClamp l .qormos (presetTaps n) == presetTaps n
  | .ethernet => false

/-- The partner's taps as lane `l` knows them: its answers' outcome, at first the preset of QLE_LADDER.init_preset on a Qormos
lane (DEDUCED, notes/assumptions/130.md). -/
def State.peerTaps (s : State) (l : Nat) : List Int :=
  let t := (s.ltrAt l).reqTaps
  if t.isEmpty then presetTaps (((s.portOfLane l).map (fun x => s.ladPreset x.1)).getD 0) else t

/-- The receiver of lane `l` wants `req` of its partner (R116-R118, R145). No request leaves the bounds, none is made while an
answer is awaited, and no tap moves by more than one step per request. Answers whether a bound held a request back. -/
def askPartner (l : Nat) (req : PartnerReq) (s : State) : Bool × State :=
  match s.asks l with
  | none => (false, s)
  | some fam =>
    let t := s.ltrAt l
    if t.outWait then (false, s) else
    match req with
    | .none => (false, s)
    | .preset n =>
      if s.presetAllowed l fam n then
        (false, s.modLtr l (fun t => { t with
          outSeq := (t.outSeq + 1) % 16, outPreset := some n, outWait := true,
          outTaps := if fam = .qormos then presetTaps n else t.outTaps }))
      else (true, s)
    | .taps want =>
      let old := s.peerTaps l
      let w := s.reqClamp l fam want
      let next := (old.zip w).map (fun p => stepToward p.1 p.2)
      let hit := w != want
      if next = old then (hit, s)
      else (hit, s.modLtr l (fun t => { t with
        outSeq := (t.outSeq + 1) % 16, outPreset := none, outTaps := next, outWait := fam != .ethernet,
        reqTaps := if fam = .ethernet then next else t.reqTaps }))

/-- The tap_req that lane `l` sends (R144, R145): the steps of the request that awaits its answer. -/
def State.tapReq (s : State) (l : Nat) : Nat :=
  let t := s.ltrAt l
  if !t.outWait ∨ t.outPreset.isSome then 0 else
  tapField (fun i =>
    let a := (s.peerTaps l).getD i 0
    let b := t.outTaps.getD i 0
    if a < b then 1 else if b < a then 2 else 0)

/-- A Qormos partner's answer reaches lane `l` (R145): each tap reported as updated has moved as asked. -/
def tapAnswered (l seq status : Nat) (s : State) : State :=
  let t := s.ltrAt l
  if !t.outWait ∨ t.outSeq ≠ seq then s else
  let old := s.peerTaps l
  s.modLtr l (fun t => { t with
    outWait := false, outPreset := none,
    reqTaps := (List.range 6).map (fun i => if tapBits status i = 1 then t.outTaps.getD i 0 else old.getD i 0) })

/-- A PCIe partner's report of its coefficients reaches lane `l` (R116, R124). It answers a request by what was asked for, or by
Reject, which leaves the partner's taps as they were. -/
def pcieReported (l : Nat) (ts : TsSet) (s : State) : State :=
  let c := ts.coef
  let got : List Int := [0, 0, -(c.1.toNat : Int), (c.2.1.toNat : Int), -(c.2.2.toNat : Int), 0]
  s.modLtr l (fun t => { t with
    peerFs := if ts.eqPhase = some 1 then ts.fs.toNat else t.peerFs,
    reqTaps := if ts.reject then t.reqTaps else got,
    outWait := t.outWait && !ts.reject && (match t.outPreset with
      | some n => ts.preset.val != n
      | none => got != t.outTaps) })

/-- The receiver of lane `l` has settled (R125): no equaliser tap has changed for 2^20 symbols. -/
def LaneSt.settled (x : LaneSt) : Bool := decide (2 ^ 20 ≤ x.eqSeen - x.eqMoved)

/-- The continuous monitor of lane `l` estimates an error ratio below 10^-4 (R145). -/
def LaneSt.clean4 (x : LaneSt) : Bool := decide (x.mon.1 * 10000 < x.mon.2)

/-- The receiver of a Qormos lane in coefficient training sets rx_ready once it has settled with a low error ratio (R145). -/
def readyCheck (l : Nat) (s : State) : State :=
  let x := s.laneAt l
  if s.asks l = some .qormos && x.settled && x.clean4 then s.modLtr l (fun t => { t with readyTx := true }) else s

end Sys2Proof.Machine
end

