-- ==== Sys2Proof/Machine/Lane.lean ====
section
/-! DEFINITION. The commands of the lane front (chapter 03): anchor words, wiring faults, lane and quad fault sources,
adaptation, Doze and Moored exit, Windsock and margining (R80-R111). -/

namespace Sys2Proof.Machine

/-- The lane is powered and assigned: its detectors work (R97, R103). -/
def State.laneOn (s : State) (l : Nat) : Bool := (s.laneAt l).st != .unassigned

/-- The receiver of lane `l` runs: in Run, and not stopped by an error of its DSP memories (R100, R103). -/
def State.receives (s : State) (l : Nat) : Bool := (s.laneAt l).st == .run && !(s.laneAt l).cut.getLsbD 3

/-- The polarity that a lane's receiver finds (R92); a reversed pair raises wiring_corrected. -/
def polarity (l : Nat) (inv : Bool) (s : State) : State :=
  if inv = (s.laneAt l).rxInv then s else
  let s := s.modLane l (fun x => { x with rxInv := inv })
  if inv then laneRaise l 7 s else s

/-! ### Anchor words -/

/-- Symbols between two anchor words (R75, R80). -/
def anchorSpacing : Nat := 18874432

/-- The port position of the identity differs from that of every other eligible lane of port `ip` (R81). -/
def State.posFree? (s : State) (ip l pos : Nat) : Bool :=
  ((s.ipPositions ip).map (s.cfgLane ip)).all (fun m =>
    m == l || !(s.laneAt m).eligible || ((s.portOfLane m).map (·.2)) != some pos)

/-- The identity check of a match on lane `l` while LOCKED (R81, R94, R102). -/
def identityCheck (l : Nat) (ident : Nat) (s : State) : State :=
  match s.portOfLane l with
  | none => s
  | some (ip, k) =>
    let tag := ident / 2 ^ 27
    let pos := ident / 2 ^ 22 % 32
    let x := s.laneAt l
    if tag = s.ipTag ip ∧ pos < s.ipLanes ip ∧ s.posFree? ip l pos then
      let s := s.modLane l (fun x => { x with identOk := true, pos := some pos, cut := x.cut &&& 0xDF })
      let s := if s.sound l && !x.eligible then gainLane l s else s
      let s := if pos ≠ ((s.ipPositions ip).find? (fun j => s.cfgLane ip j == l)).getD k ∧ !x.orderDone then
          let s := s.modLane l (fun x => { x with orderDone := true })
          laneRaise l 7 (s.logEvent (laneEntry .hardware l ip 5 pos 0))
        else s
      anchorsDone ip s
    else
      let cutBefore := x.cutOff
      let s := cutLane l 5 (s.modLane l (fun x => { x with identOk := false }))
      if cutBefore then s else laneRaise l 5 s

/-- What LANE_ANCHOR keeps of a match that counts (R553): the peer's tag, position and lane. -/
def LaneSt.peer (x : LaneSt) (ident : Nat) : Word := BitVec.ofNat 32 (x.anchorReg.toNat / 2 ^ 16 * 2 ^ 16 + ident / 2 ^ 16)

/-- A match at symbol position `pos` with identity `ident`, inverted or not, steps the machine (R80). The flit after the anchor word
has lane flit index (count, 0) (R198). -/
def anchorStep (l pos : Nat) (inv : Bool) (ident : Nat) (s : State) : State :=
  let cnt := BitVec.ofNat 16 (ident % 2 ^ 16)
  let x := s.laneAt l
  let fresh (s : State) : State :=
    polarity l inv (s.modLane l (fun x => { x with
      anchor := .candidate, matchPos := pos, count := cnt, misses := 0, anchorReg := x.peer ident }))
  match x.anchor with
  | .search => fresh s
  | .candidate =>
    if pos = x.matchPos + anchorSpacing then
      if cnt = x.count + 1 then
        let s := s.modLane l (fun x => { x with
          anchor := .locked, matchPos := pos, count := cnt, misses := 0, cut := x.cut &&& 0xBF, bound := 0,
          anchorReg := x.peer ident, rxIdx := (cnt, 0), rxMem := (anchorLevels ident).getLastD 0 })
        identityCheck l ident (laneEnd l 4 s)
      else s.modLane l (fun x => { x with anchor := .search })
    else if pos < x.matchPos + anchorSpacing then s
    else fresh s
  | .locked =>
    if pos = x.matchPos + anchorSpacing then
      let skip := cnt ≠ x.count + 1
      let s := s.modLane l (fun x => { x with
        matchPos := pos, count := cnt, misses := 0, rxIdx := (cnt, 0), rxMem := (anchorLevels ident).getLastD 0,
        anchorReg := let r := x.peer ident
          if skip then BitVec.ofNat 32 (satAdd 65535 (r.toNat / 2 ^ 16) 1 * 2 ^ 16 + r.toNat % 2 ^ 16) else r })
      identityCheck l ident s
    else s

/-- ANCHOR_MATCH (R80, R81, R92, R94): the levels of an anchor word at a symbol position of an I lane in Run. -/
def execAnchorMatch (l : Fin 64) (pos : Nat) (levels : BitVec 128) := live (fun s =>
  if !s.receives l then s else
  match anchorDecode levels with
  | none => s
  | some (inv, ident) => anchorStep l pos inv ident s)

/-- ANCHOR_MISS (R80, R100): the expected position passed without a match. -/
def execAnchorMiss (l : Fin 64) := live (fun s =>
  let x := s.laneAt l
  match x.anchor with
  | .search => s
  | .candidate => s.modLane l (fun x => { x with anchor := .search })
  | .locked =>
    if x.misses < 2 then s.modLane l (fun x => { x with misses := x.misses + 1, matchPos := x.matchPos + anchorSpacing })
    else
      let cut := x.cutOff
      let s := cutLane l 6 (dropLock l s)
      if cut then s else laneRaise l 4 s)

/-! ### Wiring faults -/

/-- TX_SHORT (R97): `legs` and `kind` as LANE_SENSE reports them. It works in every lane state outside reset. -/
def execTxShort (l : LaneNo) (legs : BitVec 2) (kind : Fin 4) := live (fun s =>
  if !s.laneOn l then s else
  laneRaise l 0 (s.modLane l (fun x => { x with
    txHiZ := true, clean := 0,
    sense := BitVec.ofNat 32 (x.sense.toNat / 16 * 16 + kind.val * 4 + legs.toNat) })))

/-- TX_SHORT_RETEST (R97): the third consecutive clean test clears the condition; the transmitter stays at high
impedance. -/
def execTxShortRetest (l : LaneNo) (clean : Bool) := live (fun s =>
  let x := s.laneAt l
  if !x.txHiZ then s
  else if !clean then s.modLane l (fun x => { x with clean := 0 })
  else
    let s := s.modLane l (fun x => { x with clean := min 3 (x.clean + 1) })
    if x.clean = 2 then laneEnd l 0 s else s)

/-- RECEIVER_DETECTION (R98): which legs found a termination. -/
def execReceiverDetection (l : LaneNo) (foundP foundN : Bool) := live (fun s =>
  if !s.laneOn l then s else
  let opens := (if foundP then 0 else 1) + (if foundN then 0 else 2)
  let s := s.modLane l (fun x => { x with
    sense := BitVec.ofNat 32 (x.sense.toNat / 1024 * 1024 + opens * 256 + x.sense.toNat % 256) })
  let s := s.modLtr l (fun x => { x with detected := foundP && foundN })
  let s := reportDetect l (foundP && foundN) s
  if opens ≠ 0 then laneRaise l 1 (cutLane l 0 s) else laneEnd l 1 (uncutLane l 0 s))

/-! ### Receiver conditions -/

/-- RX_LOS (R100). -/
def execRxLos (l : LaneNo) := live (fun s => if !s.laneOn l then s else laneRaise l 2 (cutLane l 1 s))

/-- RX_LOS_END (R100). -/
def execRxLosEnd (l : LaneNo) := live (fun s => laneEnd l 2 (uncutLane l 1 s))

/-- CDR_UNLOCK (R80, R100): anchor or block lock is dropped. -/
def execCdrUnlock (l : LaneNo) := live (fun s => if !s.laneOn l then s else laneRaise l 3 (cutLane l 2 (dropLock l s)))

/-- CDR_LOCK (R89, R105): the condition cdr_unlock ends; each bound may be reported again. -/
def execCdrLock (l : LaneNo) := live (fun s => laneEnd l 3 (uncutLane l 2 (s.modLane l (fun x => { x with bound := 0 }))))

/-- BLOCK_LOCK_LOSS (R100, R102): loss of block or ordered-set lock; a cut-off lane raises no align_loss. -/
def execBlockLockLoss (l : LaneNo) := live (fun s =>
  if !s.laneOn l then s else
  let cut := (s.laneAt l).cutOff
  let s := cutLane l 6 s
  if cut then s else laneRaise l 4 s)

/-- BLOCK_LOCK_ACQUIRED (R89, R100): each bound may be reported again. -/
def execBlockLockAcquired (l : LaneNo) := live (fun s =>
  laneEnd l 4 (uncutLane l 6 (s.modLane l (fun x => { x with bound := 0 }))))

/-- A 7-bit field in two's complement. -/
def signed7 (v : Nat) : Int := if v < 64 then v else (v : Int) - 128

/-- The pseudo-errors and compared symbols of a point (R108): of each symbol the decided level and the Windsock sample in ADC codes
from the chosen threshold, which lies between levels `k` and `k + 1`; `off` is the voltage offset. Both counts saturate at 40
bits. -/
def wskCount (k : Nat) (off : Int) (samples : List (Fin 4 × Int)) : Nat × Nat :=
  let cmp := samples.filter (fun p => p.1.val == k || p.1.val == k + 1)
  let err := cmp.filter (fun p => (p.1.val == k + 1) == decide (p.2 < off))
  (min (2 ^ 40 - 1) err.length, min (2 ^ 40 - 1) cmp.length)

/-- The level below the threshold that Windsock of lane `l` measures against (R108). -/
def State.wskLevel (s : State) (l : Nat) : Nat := if isPam4 (s.curRate l) then s.bits (laneBase l + 0x50) 9 8 else 0

/-- The continuous monitor of lane `l` runs (R109, R145): operation 3 in Run, no margining command holding the sampler; coefficient
training of a Qormos lane uses it whatever the operation (DEDUCED, notes/assumptions/131.md). -/
def State.monitors (s : State) (l : Nat) : Bool :=
  let x := s.laneAt l
  x.st == .run && !x.margin && (x.wskOp == 3 || s.asks l == some .qormos)

/-- BER_INTERVAL_END (R100, R108, R145): ber_high is a condition while the error events of an interval exceed LANE_BER.limit: RS
symbols corrected on a Qormos PAM4 lane, on any other lane the pseudo-errors of the continuous monitor at LANE_BER.offset. -/
def execBerIntervalEnd (l : LaneNo) (samples : List (Fin 4 × Int)) := live (fun s =>
  if !s.laneOn l then s else
  let mon := wskCount (s.wskLevel l) (signed7 (s.bits (laneBase l + 0x30) 14 8)) samples
  let runs := s.monitors l
  let qormos := decide (l.val < 64) && decide (10 ≤ s.curRate l)
  let events := if qormos then (s.laneAt l).rsCorr else mon.1
  let s := s.modLane l (fun x => { x with rsCorr := 0, mon := if runs then mon else x.mon })
  let s := readyCheck l s
  if !qormos && !runs then s
  else if (s.reg (laneBase l + 0x34)).toNat < events then laneRaise l 6 s
  else laneEnd l 6 s)

/-- DSP_ERROR (R100): the receiver stops until its path is reset, and its lock is dropped. -/
def execDspError (l : LaneNo) := live (fun s => if !s.laneOn l then s else laneRaise l 9 (cutLane l 3 (dropLock l s)))

/-! ### Adaptation -/

/-- The settings that the loops of lane `l` want, brought within LANE_BOUND (R88, R89): CTLE 0 to 24 dB within ctle_min and
ctle_max, the 24 FFE taps but the main cursor within ffe_max, h1 within dfe_max; and a bit for each bound reached. -/
def State.adapt (s : State) (l ctle : Nat) (ffe : List Int) (dfe : Int) : EqSt × Nat :=
  let b := laneBase l + 0x18
  let cmin := s.bits b 4 0
  let cmax := s.bits b 12 8
  let fmax : Int := s.bits b 23 16
  let dmax : Int := s.bits b 31 24
  let main := (s.laneAt l).ffeMain
  let side := (List.range 24).map (fun i => (i + 1, ffe.getD i 0))
  let free (i : Nat) : Bool := i != main
  ({ ctle := min 24 (max cmin (min cmax ctle)), dfe := max (-dmax) (min dmax dfe),
     ffe := side.map (fun p => if free p.1 then max (-fmax) (min fmax p.2) else p.2) },
   (if ctle ≤ cmin then 1 else 0) + (if cmax ≤ ctle then 2 else 0)
    + (if side.any (fun p => free p.1 && decide (fmax ≤ p.2.natAbs)) then 4 else 0) + (if dmax ≤ dfe.natAbs then 8 else 0))

/-- ADAPTATION_UPDATE (R88-R90, R116-R118, R125, R127) at a symbol position: the values that the loops want, the main cursor, and what
the receiver wants of its partner. Each bound raises policy_bound the first time it is reached after a lock. -/
def execAdaptationUpdate (l : LaneNo) (pos ctle : Nat) (eq : EqTaps) (req : PartnerReq) := live (fun s =>
  if !s.receives l ∨ (s.laneAt l).frozen then s else
  let r := s.adapt l ctle eq.ffe eq.dfe
  let a := askPartner l req s
  let hit := BitVec.ofNat 5 (r.2 + (if a.1 then 16 else 0))
  let new := hit &&& ~~~(s.laneAt l).bound
  let s := a.2.modLane l (fun x => { x with
    eq := r.1, bound := x.bound ||| hit, eqSeen := pos,
    eqMoved := if x.eqSeen = 0 ∨ x.eq ≠ r.1 then pos else x.eqMoved })
  let s := s.modLtr l (fun t => { t with h1Large := decide (eq.main.natAbs < 4 * r.1.dfe.natAbs) })
  let s := readyCheck l s
  if new = 0 then s else laneRaise l 8 s)

/-! ### Quads -/

/-- PLL_UNLOCK (R101, R432) of the PLL of quad `q`: a quad clocked from it loses its clock source. -/
def execPllUnlock (t : Nat) (q : QuadNo) := live (fun s =>
  let s := (s.at t).modQuad q (fun x => { x with pll := false })
  let s := s.modDom (txDom q) (fun x => { x with lock := false })
  each (s.clockedFrom q) (fun p s => quadLoss p 0 s) s)

/-- CLOCK_MONITOR (R101, R432): the transmit clock of quad `q` misses an edge, so its present input does not toggle. -/
def execClockMonitor (t : Nat) (q : QuadNo) := live (fun s =>
  let s := s.at t
  let i := (s.domAt (txDom q)).input
  let s := each (txDom q :: (quadLanes q).map rxDom) (fun d s =>
    s.modDom d (fun x => { x with mon := x.mon &&& ~~~BitVec.ofNat 3 (2 ^ i) })) s
  quadLoss q 1 s)

/-- QUAD_PLL_RELOCK (R101): the quad's own PLL locks again, which ends the conditions of the quads that are clocked from it. -/
def execQuadPllRelock (q : QuadNo) := live (fun s =>
  let s := s.modQuad q (fun x => { x with pll := true })
  let s := s.modDom (txDom q) (fun x => { x with lock := true })
  let s := each (txDom q :: (quadLanes q).map rxDom) (fun d s => s.modDom d (fun x => { x with mon := x.mon ||| 2 })) s
  each (s.clockedFrom q) quadRuns s)

/-- CALIBRATION (R98, R101): per lane of the quad whether termination, offset and swing are in range, and the termination
measured per leg in ohms. -/
def execCalibration (q : QuadNo) (good : List Bool) (terms : List (Nat × Nat)) := live (fun s =>
  let s := each [0, 1, 2, 3] (fun k s =>
    let l := 4 * q.val + k
    let t := terms.getD k (0, 0)
    let s := s.modLane l (fun x => { x with
      sense := BitVec.ofNat 32 (t.2 % 256 * 2 ^ 24 + t.1 % 256 * 2 ^ 16 + x.sense.toNat % 2 ^ 16) })
    if good.getD k true then uncutLane l 4 s else cutLane l 4 s) s
  let bad := (good.take 4).any (fun g => !g)
  let s := s.modQuad q (fun x => { x with calFailed := bad })
  if bad then quadRaise q 2 s else s)

/-- QUAD_CONFIG_ECC (R101): the quad's transmitters idle and its lanes are not eligible until the quad is reset. -/
def execQuadConfigEcc (q : QuadNo) := live (fun s =>
  let s := s.modQuad q (fun x => { x with cfgEcc := true })
  let s := each (quadLanes q) (fun l s => cutLane l 7 (s.modLane l (fun x => { x with txIdle := true }))) s
  quadRaise q 3 s)

/-! ### Lane states -/

/-- The lane carries a PCIe link: a store lane, a lane of a PCIe D port in Pass or the Guard family, or an I lane of such a
path in Pass (R104, R155). -/
def State.pcieLane (s : State) (l : Nat) : Bool :=
  if 128 ≤ l then true else
  match s.pathOfLane l with
  | none => false
  | some n =>
    let m := (s.pathAt n).mode
    s.dpFamily (s.pathD n) == 0 && (m == .pass || (decide (64 ≤ l) && m.guardFam))

/-- LANE_DOZE_ENTRY (R104): PCIe lanes only. Windsock ends as interrupted (R109). -/
def execLaneDozeEntry (l : LaneNo) := live (fun s =>
  if (s.laneAt l).st = .run ∧ s.pcieLane l then laneTo .doze l s else s)

/-- LANE_DOZE_EXIT (R104). The continuous monitor goes on (R103). -/
def execLaneDozeExit (l : LaneNo) := live (fun s =>
  if (s.laneAt l).st ≠ .doze then s else
  let held := ((s.pathOfLane l).map (fun n => (s.pathAt n).safe)).getD false
  (laneTo .run l s).modLane l (fun x => { x with txIdle := held, txMem := 0, rxMem := 0, eligible := decide (64 ≤ l.val) && s.sound l }))

/-- The seed coefficients of a rate in the lanes section of the image (R105). -/
def State.seedEq (s : State) (rate : Nat) : EqSt :=
  let c (i : Nat) : Int := Config.seedCoef (s.gon.img.dsp.flatMap (·.2)) rate i
  { ctle := (c 0).toNat, ffe := (List.range 24).map (fun i => c (i + 1)), dfe := c 25 }

/-- MOORED_EXIT_COMPLETE (R91, R105, R177): the lane has converged from its stored coefficients at their rate, from the seed
coefficients at any other, and is in Run. -/
def execMooredExitComplete (l : Fin 128) := live (fun s =>
  let x := s.laneAt l
  if x.st ≠ .moored ∨ !x.exiting then s else
  let held := ((s.pathOfLane l).map (fun n => (s.pathAt n).safe)).getD false || s.passSpare l
  let rate := s.laneRate l
  let seed := s.seedEq rate
  let s := s.modLane l (fun x => { x.toRun with
    eq := (match x.stored with | some (r, e) => if r = rate then e else seed | none => seed),
    txIdle := held, txMem := 0, rxMem := 0 })
  let s := if 64 ≤ l.val ∧ s.sound l then s.modLane l (fun x => { x with eligible := true }) else s
  match s.pathOfLane l with
  | none => s
  | some n => wakeDone n s)

/-! ### Windsock -/

/-- A write of WSK_CTRL starts operation `op` (R108, R109, R553). A lane that is not in Run has no Windsock to run it: what such a
start records is not said, and the model records an interrupted scan at once (DESIGN CHOICE, notes/assumptions/132.md). -/
def wskStart (op l : Nat) (ctrl : BitVec 64) (s : State) : State :=
  if !s.laneOn l then s else
  let b := laneBase l + 0x50
  let lo := (ctrl.toNat % 2 ^ 32 / 4 * 4 + op) &&& 0xFFFFF303
  let s := (s.setReg b (BitVec.ofNat 32 lo)).setReg (b + 4) (BitVec.ofNat 32 (ctrl.toNat / 2 ^ 32 % 2 ^ 16))
  let run := decide ((s.laneAt l).st = .run)
  s.modLane l (fun x => { x with
    wskOp := if run then op else 0, wskDone := if op = 0 then x.wskDone else 0, wskCut := 0,
    wskEnd := if op = 0 then x.wskEnd else if run then 0 else 2 })

/-- WSK_CTRL op 1 (R109). -/
def execWskPoint (l : LaneNo) (ctrl : BitVec 64) := live (wskStart 1 l ctrl)

/-- WSK_CTRL op 2 (R109). -/
def execWskRaster (l : LaneNo) (ctrl : BitVec 64) := live (wskStart 2 l ctrl)

/-- WSK_CTRL op 3 (R109). -/
def execWskMonitor (l : LaneNo) (ctrl : BitVec 64) := live (wskStart 3 l ctrl)

/-- WSK_CTRL op 0 (R109). -/
def execWskIdle (l : LaneNo) (ctrl : BitVec 64) := live (wskStart 0 l ctrl)

/-- Points of operation `op` (R553): one, or the raster's grid, at most the 256 entries of the buffer. -/
def State.wskPoints (s : State) (l op : Nat) : Nat :=
  if op = 2 then min 256 ((s.bits (laneBase l + 0x54) 3 0 + 1) * (s.bits (laneBase l + 0x54) 7 4 + 1)) else 1

/-- The voltage offset of point `i` of operation `op` (R108, R553). A raster steps from the offsets of WSK_CTRL, its phase points
first (DESIGN CHOICE, notes/assumptions/132.md). -/
def State.wskOffset (s : State) (l op i : Nat) : Int :=
  let b := laneBase l + 0x50
  signed7 (s.bits b 31 25)
    + (if op = 2 then ((i / (s.bits (b + 4) 3 0 + 1) * s.bits (b + 4) 15 12 : Nat) : Int) else 0)

/-- WSK_SCAN_END (R108, R109): why the operation ends, and the symbols of the points done. A scan that the lane or a margining command
cut short keeps its cause, and its points done are kept. -/
def execWskScanEnd (l : LaneNo) (cause : WskEnd) (points : List (List (Fin 4 × Int))) := live (fun s =>
  let x := s.laneAt l
  let op := if x.wskOp = 0 then x.wskCut else x.wskOp
  if op = 0 then s else
  let ps := if op = 3 then [] else points.take (s.wskPoints l op)
  let level := s.wskLevel l
  let res := (ps.zip (List.range ps.length)).map (fun p => (p.2, wskCount level (s.wskOffset l op p.2) p.1))
  s.modLane l (fun x => { x with
    wskOp := 0, wskCut := 0, wskDone := ps.length,
    wskEnd := if x.wskOp = 0 then x.wskEnd else (match cause with | .complete => 1 | .interrupted => 2 | .preempted => 3),
    wskRes := res.foldl (fun t p => t.set (0, 0) p.1 p.2) x.wskRes }))

/-! ### Margining (R110, R133) -/

/-- The capabilities of the receiver of lane `l` (R110), at its present gain. -/
def State.marginCaps (s : State) (l : Nat) : MarginCaps := { maxVoltage := Config.adcInputMv 63 (s.laneAt l).eq.ctle }

/-- The answer to a step command: the errors counted are the receiver's, a free value (R110). -/
def stepAnswer (cmd : MarginCmd) (s : State) : MarginAns × State := (.step cmd s.free.1, s.free.2)

/-- The receiver of lane `l` answers a margining command (R109, R110, R133). A command takes the sampler from a scan, which ends as
preempted; a step command holds it, and the continuous monitor stops, until the receiver returns to its normal settings. -/
def marginLane (l : Nat) (cmd : MarginCmd) (s : State) : State :=
  let s := s.modLane l (fun x =>
    if x.wskOp = 1 ∨ x.wskOp = 2 then { x with wskOp := 0, wskEnd := 3, wskCut := x.wskOp } else x)
  let put (a : MarginAns) (hold : LaneSt → Bool) (s : State) : State :=
    s.modLane l (fun x => { x with marginAns := some a, margin := hold x })
  match cmd with
  | .capabilities => put (.capabilities (s.marginCaps l)) (·.margin) s
  | .timing left steps => let r := stepAnswer (.timing left steps) s; put r.1 (fun _ => true) r.2
  | .voltage down steps => let r := stepAnswer (.voltage down steps) s; put r.1 (fun _ => true) r.2
  | .normal => put (.done .normal) (fun _ => false) s
  | .clearLog => put (.done .clearLog) (·.margin) s

/-- MARGINING_COMMAND (R109, R110, R111, R133) to a receiver number, as one lane receives it. At retimer position p the standard gives
receiver 2p to the UPP and 2p + 1 to the DPP; a virtual pseudo-port answers that margining is not supported; a store lane is
receiver 1 of a root port. Any other command is forwarded. -/
def execMarginingCommand (e : PcieEnd) (receiver : Fin 8) (cmd : MarginCmd) := live (fun s =>
  match e with
  | .store l => if receiver.val = 1 ∧ (s.laneAt (128 + l.val)).st = .run then marginLane (128 + l.val) cmd s else s
  | .path p _ k =>
    let pos := (s.pathAt p).retimer
    if !s.pciePath p ∨ pos = 0 ∨ receiver.val / 2 ≠ pos ∨ s.dpWidth (s.pathD p) ≤ k.val then s else
    let side : Side := if (receiver.val % 2 = 1) = s.isDpp p .dSide then .dSide else .iSide
    if s.electrical p side then marginLane (s.sideLane p side k) cmd s
    else s.modPath p (fun x => { x with virtMargin := some .notSupported }))

end Sys2Proof.Machine
end

