-- ==== Sys2Proof/Machine/Load.lean ====
section
/-! DEFINITION. Records that the instrument loads and uploads (R271, R273-R275): the assembly of EXPECT chunks, the checks of a
loaded record, uploads, releases and STATUS. -/

namespace Sys2Proof.Machine

/-! ### Loads -/

/-- A load of stream `k` that fails a check is counted (R273, R274, R293). -/
def loadError (k : Nat) (s : State) : State :=
  let s := s.modStrm k (fun x => { x with loadErr := satAdd (2 ^ 32 - 1) x.loadErr 1 })
  if s.stRole k ≤ 4 then raiseSpool (s.stPath k) 3 s else s

/-- The record of 4,096 bytes (R247). -/
def recOf (b : List Byte) : Rec :=
  { kind := field b 1 1, seq := field b 4 8, time := BitVec.ofNat 64 (field b 12 8),
    payload := (b.drop 64).take (min 4000 (field b 24 2)), flags := b.getD 27 0, gap := field b 28 4, first := field b 32 4,
    offset := field b 36 2, aux := field b 40 4, place := (field b 20 1, field b 21 1, field b 38 1), laneMask := BitVec.ofNat 16 (field b 22 2) }

/-- A loaded record passes the checks of R273: stream, sequence number, CRC-64 and kind (R248). -/
def recordOk (k seq : Nat) (b : List Byte) : Bool :=
  decide (field b 2 2 = k) && decide (field b 4 8 = seq) && decide (field b 1 1 ≤ 0x0B) && decide (1 ≤ field b 1 1)
    && decide (field b 4064 8 = crc64 (b.take 4064))

/-- A record loaded into stream `k` takes a position (R271). With none free it is a host error, after which only the content of the
stream is open (R8): the model leaves free whether the record is passed over or counted as a load error. -/
def loadRec (k : Nat) (r : Rec) (s : State) : State :=
  if s.posFree k = 0 ∨ (s.strmAt k).slot.isNone then
    s.modStrm k (fun x => { x with loadErr := if Config.hostError 271 k % 2 = 0 then x.loadErr else satAdd (2 ^ 32 - 1) x.loadErr 1 })
  else s.modStrm k (fun x => { x with staged := x.staged ++ [{ r with sealedAt := s.now }], next := max x.next (r.seq + 1) })

/-- The stream of an EXPECT flit is one of path `n`, or of a member of its fan-out group, with a role of 2 to 4 (R274). -/
def State.loadable (s : State) (n k : Nat) : Bool :=
  s.stEn k && decide (2 ≤ s.stRole k) && decide (s.stRole k ≤ 4) && decide (s.leadOf (s.stPath k) = n)

/-- The bytes of a record from its 18 chunks (R274). -/
def assemble (c : Tbl (List Byte)) : List Byte := (List.range 17).flatMap (fun i => fit 240 0 (c.get [] i)) ++ fit 16 0 (c.get [] 17)

/-- A chunk of a record of stream `k` is delivered (R274): once all 18 of one number have come, the record is checked. -/
def expectFlit (payload : List Byte) (s : State) : State :=
  let k := field payload 2 2 % 1024
  let seq := field payload 4 8
  let i := field payload 1 1
  let x := s.strmAt k
  if seq < x.next then s else
  let chunks : Tbl (List Byte) := if x.chunkSeq = seq then x.chunks else {}
  let chunks := chunks.set [] i ((payload.drop 16).take (if i = 17 then 16 else 240))
  let s := s.modStrm k (fun x => { x with chunks := chunks, chunkSeq := seq })
  if (List.range 18).all (fun i => !(chunks.get [] i).isEmpty) then
    let b := assemble chunks
    let s := s.modStrm k (fun x => { x with chunks := {} })
    if seq = x.next ∧ recordOk k seq b then loadRec k (recOf b) s else loadError k s
  else s

/-! ### Uploads -/

/-- UPLOAD_END of stream `k` (R275). -/
def uploadEnd (n k last cause : Nat) (s : State) : State :=
  let s := s.modStrm k (fun x => { x with upload := none, upChunk := 0 })
  s.sendCtrl n 8 (bytesOf 1 0x14 ++ bytesOf 1 0 ++ bytesOf 2 k ++ bytesOf 8 last ++ bytesOf 1 cause)

/-- The next CHUNK flit of an upload of stream `k`, or its end (R275); a record waits for its read from HBM. -/
def uploadStep (n k : Nat) (s : State) : State :=
  let x := s.strmAt k
  match x.upload with
  | none => s
  | some (q, last) =>
    if last < q then uploadEnd n k last 0 s
    else match x.window.find? (fun r => r.seq == q && r.kind != 0x0B) with
    | none =>
      if x.accepted < q then uploadEnd n k (q - 1) 1 s
      else if x.window.any (fun r => r.kind != 0x0B && decide (r.seq < q)) then
        s.modStrm k (fun x => { x with upload := some (q + 1, last) })
      else uploadEnd n k (q - 1) 2 s
    | some r =>
      if x.upRead < q then s
      else if r.poison then uploadEnd n k (q - 1) 3 s else
      let c := x.upChunk
      let b := s.recBytes k r
      let d := fit 240 0 ((b.drop (240 * c)).take 240)
      let s := s.modStrm k (fun x => { x with
        upload := if c = 17 then some (q + 1, last) else x.upload, upChunk := if c = 17 then 0 else c + 1 })
      s.sendCtrl n 8 (bytesOf 1 0x11 ++ bytesOf 1 c ++ bytesOf 2 k ++ bytesOf 8 q ++ List.replicate 4 0 ++ d)

/-- The uploads of path `n`, or of a fan-out group that it leads, that run. -/
def State.uploads (s : State) (n : Nat) : List Nat := s.streamsOf (fun k => (s.strmAt k).upload.isSome && s.leadOf (s.stPath k) == n)

/-- A CAPTURE message of the instrument to path `n` (R275): UPLOAD, RELEASE or STATUS_REQ. -/
def captureMsg (n : Nat) (payload : List Byte) (s : State) : State :=
  let k := field payload 2 2 % 1024
  let q := field payload 4 8
  match field payload 0 1 with
  | 1 =>
    let cnt := field payload 12 2
    if cnt = 0 then s
    else if !(s.stEn k && s.leadOf (s.stPath k) == n) then uploadEnd n k (q - 1) 1 s
    else s.modStrm k (fun x => { x with upload := some (q, q + cnt - 1), upChunk := 0, upRead := q - 1 })
  | 2 =>
    if s.stEn k && s.leadOf (s.stPath k) == n && ((s.stRole k ≤ 1 && !s.stDrain k) || (2 ≤ s.stRole k && s.stRole k ≤ 4)) then release k q s
    else s
  | 3 => s.sendCtrl n 8 (s.statusMsg k)
  | _ => s

end Sys2Proof.Machine
end

