-- ==== Sys2Proof/Machine/Flit.lean ====
section
/-! DEFINITION. The Qormos flit as a receiver reads it: the header (R192), the checks of R194 on type, class, codes and fields
marked 0 (R193, R195, R203, R208, R216, R223, R231, R233-R235, R274, R275, R494, R534), and the fields of NAK, SPARE and
TUNNEL messages. -/

namespace Sys2Proof.Machine

/-! ### Header -/

/-- Field `[hi:lo]` of a flit header (R192). -/
def hdrBits (h : BitVec 96) (hi lo : Nat) : Nat := h.toNat / 2 ^ lo % 2 ^ (hi + 1 - lo)

/-- The fields of a flit header (R192). -/
structure Hdr where
  typ  : Nat
  path : Nat
  rp   : Bool
  hop  : Nat
  seq  : Seq
  ack  : Seq
  beatLo : Nat
  phase : Nat
  lf   : Nat
deriving DecidableEq, Repr

/-- Read a flit header (R192). -/
def hdrOf (h : BitVec 96) : Hdr :=
  { typ := hdrBits h 95 92, path := hdrBits h 91 87, rp := h.getLsbD 86, hop := hdrBits h 85 84,
    seq := BitVec.ofNat 24 (hdrBits h 83 60), ack := BitVec.ofNat 24 (hdrBits h 59 36), beatLo := hdrBits h 35 20,
    phase := hdrBits h 19 8, lf := hdrBits h 7 0 }

/-- Write a flit header (R192). The device sends hop 0. -/
def hdrWord (typ path : Nat) (rp : Bool) (seq ack : Seq) (beat : BitVec 28) (lf : Nat) : BitVec 96 :=
  BitVec.ofNat 96 (typ % 16 * 2 ^ 92 + path % 32 * 2 ^ 87 + (if rp then 2 ^ 86 else 0) + seq.toNat * 2 ^ 60
    + ack.toNat * 2 ^ 36 + beat.toNat * 2 ^ 8 + lf % 256)

/-- Control class of a CTRL flit (R193). -/
def Hdr.cls (h : Hdr) : Nat := h.lf / 16

/-- The flit carries a sequence number of its own (R193, R195). -/
def Hdr.sequenced (h : Hdr) : Bool :=
  match h.typ with
  | 1 | 6 | 7 => true
  | 2 => !(h.cls == 0 || h.cls == 3 || h.cls == 4)
  | _ => false

/-! ### Sequence numbers -/

/-- How far `b` lies after `a`, modulo 2^24 (R199). -/
def seqDist (a b : Seq) : Nat := (b - a).toNat

/-- `a` is earlier than `b` (R199). -/
def seqBefore (a b : Seq) : Bool := 1 ≤ seqDist a b && seqDist a b ≤ 2 ^ 23 - 1

/-- `a` is `b` or earlier. -/
def seqUpTo (a b : Seq) : Bool := a == b || seqBefore a b

/-! ### Fields that must be 0 -/

/-- Bytes `i` to `j - 1` of a payload are 0. -/
def zeros (bs : List Byte) (i j : Nat) : Bool := ((bs.drop i).take (j - i)).all (· == 0)

/-! ### NAK entries (R203) -/

/-- A NAK entry. -/
inductive NakEnt where
  | lost (pos n f : Nat)
  | seq (first last : Seq)
  | lane (pos n f : Nat)
deriving DecidableEq, Repr

/-- Read a NAK entry; none for a malformed one. -/
def nakOf (v : Nat) : Option NakEnt :=
  let pos := v / 2 ^ 57 % 32
  let n := v / 2 ^ 41 % 65536
  let f := v / 2 ^ 27 % 16384
  match v / 2 ^ 62 with
  | 0 => if v % 2 ^ 27 = 0 then some (.lost pos n f) else none
  | 1 => if v / 2 ^ 48 % 2 ^ 14 = 0 then some (.seq (BitVec.ofNat 24 (v / 2 ^ 24)) (BitVec.ofNat 24 v)) else none
  | 2 => if v % 2 ^ 27 = 0 then some (.lane pos n f) else none
  | _ => none

/-- Write a NAK entry. -/
def nakWord : NakEnt → BitVec 64
  | .lost pos n f => BitVec.ofNat 64 (pos % 32 * 2 ^ 57 + n % 65536 * 2 ^ 41 + f % 16384 * 2 ^ 27)
  | .seq a b => BitVec.ofNat 64 (2 ^ 62 + a.toNat * 2 ^ 24 + b.toNat)
  | .lane pos n f => BitVec.ofNat 64 (2 ^ 63 + pos % 32 * 2 ^ 57 + n % 65536 * 2 ^ 41 + f % 16384 * 2 ^ 27)

/-- The entries of a NAK flit; none when one is malformed. -/
def nakEntries (h : Hdr) (pl : List Byte) : Option (List NakEnt) :=
  ((List.range (h.lf % 32 + 1)).map (fun i => nakOf (field pl (8 * i) 8))).foldr (fun e r =>
    match e, r with
    | some x, some l => some (x :: l)
    | _, _ => none) (some [])

/-! ### SPARE and TUNNEL messages (R216, R235) -/

/-- A lane flit index as one number that counts flits on the lane (R198). -/
def idxVal (n f : Nat) : Nat := n % 65536 * 16384 + f % 16384

/-- A lane flit index in the form of R216: n in [31:16], f in [15:2]. -/
def idxWord : Option FlitIndex → Nat
  | none => 0xFFFFFFFF
  | some i => i.n.toNat * 65536 + i.f.toNat * 4

/-- Read a lane flit index. -/
def idxOf (v : Nat) : Option FlitIndex :=
  if v = 0xFFFFFFFF then none else some { n := BitVec.ofNat 16 (v / 65536), f := BitVec.ofNat 14 (v / 4) }

/-- The fields of a SPARE message. -/
structure Spare where
  op    : Nat
  out   : Nat
  inn   : Nat
  cause : Nat
  tx    : Option FlitIndex
  lost  : Option FlitIndex
deriving DecidableEq, Repr

/-- Read a SPARE message. -/
def spareOf (pl : List Byte) : Spare :=
  { op := field pl 0 1, out := field pl 1 1, inn := field pl 2 1, cause := field pl 3 1, tx := idxOf (field pl 4 4),
    lost := idxOf (field pl 8 4) }

/-- Write a SPARE message. -/
def SpareMsg.bytes (m : SpareMsg) : List Byte :=
  bytesOf 1 m.op ++ bytesOf 1 m.out ++ bytesOf 1 m.inn ++ bytesOf 1 m.cause ++ bytesOf 4 (idxWord m.tx)
    ++ bytesOf 4 (idxWord m.lost) ++ bytesOf 4 0

/-- Write a TUNNEL message (R235). -/
def LinkSt.tunBytes (l : LinkSt) (m : Nat × Nat × Nat × Nat) : List Byte :=
  bytesOf 1 m.1 ++ bytesOf 1 m.2.1 ++ bytesOf 3 l.next.toNat ++ bytesOf 3 l.ack.toNat ++ bytesOf 4 m.2.2.1 ++ bytesOf 4 m.2.2.2

/-! ### The checks of R194 -/

/-- An entry of a LINE_EVENT flit that arrives I→D is listed, in its direction, with its fields marked 0 at 0 (R223). -/
def lineEntryOk (e : List Byte) : Bool :=
  match field e 0 1 with
  | 0 => true
  | 1 | 2 => field e 1 1 == 0 && zeros e 10 16
  | 4 => field e 1 1 == 0 && field e 8 2 == 0 && zeros e 10 15 && decide (field e 15 1 < 16)
  | 5 => field e 1 1 == 0
  | _ => false

/-- A SCHED entry (R534). -/
def schedEntryOk (e : List Byte) : Bool :=
  match field e 0 1 with
  | 1 => decide (field e 1 1 < 8) && zeros e 2 8 && zeros e 20 24
  | 2 => decide (field e 1 1 < 8) && zeros e 2 24
  | 3 => field e 1 1 == 0 && decide (field e 2 2 < 1024) && zeros e 4 8
  | 4 => field e 1 1 == 0 && decide (field e 2 2 < 1024) && zeros e 4 24
  | _ => false

/-- The content of a CTRL flit is well formed for path `n` (R195, R208, R216, R223, R235, R274, R275, R494, R534). -/
def State.ctrlOk (s : State) (n : Nat) (h : Hdr) (pl : List Byte) : Bool :=
  h.lf % 16 == 0 && (match h.cls with
  | 0 => true
  | 1 => (List.range 16).all (fun i => lineEntryOk (entryAt pl 0 16 i))
  | 2 => (List.range 32).all (fun i => zeros (entryAt pl 0 8 i) 6 8)
  | 3 => decide (1 ≤ field pl 0 1) && decide (field pl 0 1 ≤ 4) && decide (field pl 1 1 < 2) && zeros pl 8 16
  | 4 =>
    decide (1 ≤ field pl 0 1) && decide (field pl 0 1 ≤ 5) && decide (field pl 1 1 < 18)
      && (decide (field pl 2 1 < 18) || field pl 2 1 == 0x1F) && decide (1 ≤ field pl 3 1) && decide (field pl 3 1 ≤ 6)
      && field pl 4 4 % 4 == 0 && (field pl 8 4 == 0xFFFFFFFF || field pl 8 4 % 4 == 0) && zeros pl 12 256
  | 5 =>
    let c := field pl 0 1
    decide (1 ≤ c) && decide (c ≤ 10) && zeros pl 1 16 && zeros pl (16 + 24 * c) 256
      && (List.range c).all (fun i => schedEntryOk (entryAt pl 16 24 i))
  | 6 => decide (field pl 1 1 ≤ 2) && field pl 5 1 == 0 && decide (field pl 6 2 ≤ 240) && zeros pl 8 16
      && (field pl 1 1 == 1 || field pl 4 1 == 0) && (field pl 1 1 != 2 || field pl 2 2 == 0)
  | 8 =>
    (match field pl 0 1 with
     | 1 => zeros pl 14 256
     | 2 => zeros pl 12 256
     | 3 => zeros pl 4 256
     | _ => false) && field pl 1 1 == 0 && decide (field pl 2 2 < 1024)
  | 9 =>
    field pl 0 1 == 1 && decide (field pl 1 1 ≤ 17) && decide (field pl 2 2 < 1024) && zeros pl 12 16
      && (field pl 1 1 != 17 || zeros pl 32 256) && s.loadable n (field pl 2 2)
  | _ => false)

/-- A flit that passed RS and CRC passes the header and content checks of R194 on the link of path `n`; `test` is true in the
ladder test, where IDLE flits carry PRBS31 (R151). -/
def State.flitOk (s : State) (n : Nat) (test : Bool) (h : Hdr) (pl : List Byte) : Bool :=
  decide (h.path = n) && (match h.typ with
  | 1 => decide (h.lf < 128)
  | 2 => s.ctrlOk n h pl
  | 3 => h.lf == 0
  | 4 => decide (h.lf < 32) && (nakEntries h pl).isSome
  | 5 => h.lf == 0 && (test || zeros pl 0 256)
  | 6 => h.lf == 0 && decide (field pl 2 1 ≤ 3) && decide (field pl 3 1 < 8) && zeros pl 26 256
  | 7 => h.lf == 0 && zeros pl 12 256
  | 8 => h.lf == 0 && decide (field pl 16 1 < 2) && zeros pl 17 256
  | _ => false)

end Sys2Proof.Machine
end

