-- ==== Sys2Proof/Machine/StageCmd.lean ====
section
/-! DEFINITION. The commands on stage sets: append, clear, a path's switch, and held writes (R401-R405). -/

namespace Sys2Proof.Machine

/-- Writes that a set holds at most (R401). -/
def setSize : Nat := 4096

/-- Why an APPEND is refused: 2 not staged, 3 train-common, 1 full (R401). -/
def State.appendRefusal (s : State) (k a mask : Nat) : Option Nat :=
  match regInfo a with
  | none => some 2
  | some i =>
    if (i.wo && mask != 0) || (mask &&& i.di) != 0 then some 2
    else if (mask &&& i.tc) != 0 then some 3
    else if setSize ≤ (s.stg.sets.get [] k).length then some 1
    else none

/-- Set GLB_STAGE_STATUS.result. -/
def stageResult (r : Nat) (s : State) : State := { s with stg := { s.stg with result := r } }

/-- The debug wire may not stage into the ENV and DBG blocks (R517). -/
def debugBarred (o : Origin) (a : Nat) : Bool :=
  o == .debug && ((0x60000 ≤ a && a < 0x70000) || (0x80000 ≤ a && a < 0x90000))

/-- The origin can stage (R401). -/
def originStages : Origin → Bool
  | .trainPeer _ | .hardware => false
  | _ => true

/-- APPEND of a staged write (R401). -/
def stageAppend (o : Origin) (k : Nat) (addr value mask : Word) (s : State) : State :=
  if !originStages o then s
  else if debugBarred o addr.toNat then refuseWrite o 0x30 addr.toNat 0 s
  else
  match s.appendRefusal k addr.toNat mask.toNat with
  | some r => stageResult r (refuseWrite o 0x3C (16 * k + 1) r s)
  | none =>
    match s.commit { kind := 0x02, origin := o, hi := k, target := addr.toNat, a := value.toNat, b := mask.toNat } with
    | none => stageResult 4 (logRefused s)
    | some s =>
      let w : StagedWr := { addr := addr, value := value, mask := mask, origin := o }
      stageResult 0 { s with stg := { s.stg with sets := s.stg.sets.set [] k (s.stg.sets.get [] k ++ [w]) } }

/-- CLEAR of a set (R401). -/
def stageClear (o : Origin) (k : Nat) (s : State) : State :=
  if !originStages o then s else
  match s.commit { kind := 0x05, origin := o, target := k, a := (s.stg.sets.get [] k).length } with
  | none => stageResult 4 (logRefused s)
  | some s => stageResult 0 { s with stg := { s.stg with sets := s.stg.sets.set [] k [] } }

/-- STAGE_APPEND (R401). -/
def execStageAppend (o : Origin) (set : Fin 8) (addr value mask : Word) :=
  writeCmd o 0x3C (16 * set.val + 1) (stageAppend o set.val addr value mask)

/-- STAGE_CLEAR (R401). -/
def execStageClear (o : Origin) (set : Fin 8) := writeCmd o 0x3C (16 * set.val + 2) (stageClear o set.val)

/-- STAGE_PATH_SWITCH (R62, R402): the path's next boundary takes the first of what waits for it. -/
def execStagePathSwitch (t : Nat) (p : PathNo) := live (fun s => switchPath p.val (s.at t))

/-- STAGE_HELD_RELEASE (R404). -/
def execStageHeldRelease (t : Nat) (p : PathNo) := live (fun s => releaseHeld p.val (s.at t))

/-- STAGE_HELD_RETRY (R404): the held writes whose entry the Logbook refused, 1 µs after that. -/
def execStageHeldRetry (t : Nat) := live (fun s => let s := s.at t; releaseWhere (fun h => h.due.any (fun d => decide (d ≤ s.now))) s)

end Sys2Proof.Machine
end

