-- ==== Sys2Proof/Machine/Rx.lean ====
section
/-! DEFINITION. The receiving side of a Qormos link: acknowledgements (R200), refusal (R208, R209),
acceptance (R202, R212, R221), delivery in sequence order (R227) and the reception of any flit (R191-R194). -/

namespace Sys2Proof.Machine

/-! ### REFUSE (R208, R209) -/

/-- The entry of a REFUSE report. -/
def refuseEntry (a b : Nat) : List Byte := bytesOf 3 a ++ bytesOf 3 b ++ [0, 0]

/-- The ranges of a REFUSE report. -/
def refuseRanges (pl : List Byte) : List (Seq × Seq) :=
  ((List.range 32).map (fun i => entryAt pl 0 8 i)).filterMap (fun e =>
    if zeros e 0 8 then none else some (BitVec.ofNat 24 (field e 0 3), BitVec.ofNat 24 (field e 3 3)))

/-- A number lies in a range. -/
def inRange (q : Seq) (r : Seq × Seq) : Bool := seqUpTo r.1 q && seqUpTo q r.2

/-- A refused number joins a REFUSE report that waits to be framed, or begins one. -/
def addRefuse (n : Nat) (q : Seq) : List TxFlit → Option (List TxFlit)
  | [] => none
  | f :: t =>
    if f.typ = 2 ∧ f.cls = 2 ∧ f.path = n ∧ f.payload.length < 256 then
      let m := f.payload.length - 8
      let pl := if field f.payload (m + 3) 3 + 1 = q.toNat then f.payload.take m ++ refuseEntry (field f.payload m 3) q.toNat
        else f.payload ++ refuseEntry q.toNat q.toNat
      some ({ f with payload := pl } :: t)
    else (addRefuse n q t).map (f :: ·)

/-- Flit `q` of the I→D direction is refused: reported to the partner and in the Logbook. -/
def refuseFlit (ip n : Nat) (q : Seq) (s : State) : State :=
  if (s.portAt ip).link.refuse.any (fun r => r.seq == q) then s else
  let s := s.modLink ip (fun l => { l with refuse := l.refuse ++ [{ seq := q, report := none }] })
  let s := match addRefuse n q (s.portAt ip).link.wait with
    | some w => s.modLink ip (fun l => { l with wait := w })
    | none => s.sendCtrl n 2 (refuseEntry q.toNat q.toNat)
  reportRefused n 0 q.toNat q.toNat s

/-- A flit that is in its window is refused (R209, R495, R501), but for its tunnel index. -/
def State.refuses (s : State) (ip n : Nat) (h : Hdr) : Bool :=
  let p := s.pathAt n
  let l := (s.portAt ip).link
  if h.typ = 1 then !p.mode.guardFam || p.phase == .drain || p.safe || l.tunnel != 1
  else if h.typ = 2 ∧ h.cls = 6 then
    !s.gon.fwReady || decide (8 ≤ (s.mbAt (1 + ip)).inQ.length + (l.cells.filter (fun c => c.typ = 2 && c.cls = 6)).length)
  else false

/-! ### Line events (R223) -/

/-- An I→D line event takes effect (R223, R225): lanes enter or leave electrical idle, a new rate continues the timeline from its
interval, an auto-negotiation page is regenerated on lane 0 (R137, R139). -/
def lineEffect (n : Nat) (e : List Byte) (s : State) : State :=
  let mask := BitVec.ofNat 16 (field e 2 2)
  let k := field e 4 4
  match field e 0 1 with
  | 1 => eiEnter n mask s
  | 2 => eiExit n mask s
  | 4 =>
    let a := s.nominal n k
    s.modPath n (fun p => { p with dRate := some (field e 15 1), timeline := (a.map (fun a => (a, k))) })
  | 5 => s.modPath n (fun p => { p with pageToD := some (BitVec.ofNat 48 (field e 10 6)) })
  | _ => s

/-- The instant at the D balls of a line event that names the interval with slot `a` (R223, R225, R227). -/
def State.eventTime (s : State) (n a : Nat) (e : List Byte) : Nat := a + bitsTime (field e 8 2) (s.dRateOf n)

/-! ### Delivery (R227) -/

/-- A mailbox message of 256 bytes (R494). -/
def msgOf (pl : List Byte) : MbMsg :=
  { service := pl.getD 0 0, kind := pl.getD 1 0, tag := BitVec.ofNat 16 (field pl 2 2), status := pl.getD 4 0,
    rsv5 := pl.getD 5 0, length := BitVec.ofNat 16 (field pl 6 2), rsv8 := (pl.drop 8).take 8, body := pl.drop 16 }

/-- A message joins the inbound queue of mailbox `m`, and its event tells the cores (R486, R494). -/
def mbPut (m : Nat) (msg : MbMsg) (s : State) : State :=
  deliver (2176 + m) (s.modMb m (fun b => { b with inQ := b.inQ ++ [msg] }))

/-- One operation of a SCHED flit (R534), with origin 6. -/
def schedOp (ip : Nat) (e : List Byte) (s : State) : State :=
  let o : Origin := .ctrlFlit (Fin.ofNat 32 ip)
  let w (i : Nat) : Word := BitVec.ofNat 32 (field e i 4)
  let slot : Fin 1024 := Fin.ofNat 1024 (field e 2 2)
  if s.fatalRefuses o then refuseWrite o (if field e 0 1 ≤ 2 then 0x3C else 0x10110) (field e 0 1) 0 s else
  match field e 0 1 with
  | 1 => stageAppend o (field e 1 1 % 8) (w 8) (w 12) (w 16) s
  | 2 => stageClear o (field e 1 1 % 8) s
  | 3 => schedLoad o slot (w 8) (w 12) (w 16) (w 20) s
  | _ => schedCancel o slot s

/-- A flit without tunnel content is delivered to its consumer. -/
def deliverCell (ip n : Nat) (c : RxCell) (s : State) : State :=
  match c.typ, c.cls with
  | 7, _ => s.logEvent { kind := 0x13, origin := .ctrlFlit (Fin.ofNat 32 ip), target := 1, a := field c.payload 0 4,
                         b := field c.payload 4 1 / 128 }
  | 2, 1 => (lineEntries c.payload).foldl (fun s e => lineEffect n e s) s
  | 2, 5 => (List.range (field c.payload 0 1)).foldl (fun s i => schedOp ip (entryAt c.payload 16 24 i) s) s
  | 2, 6 => mbPut (1 + ip) (msgOf c.payload) s
  | 2, 8 => captureMsg n c.payload s
  | 2, 9 => expectFlit c.payload s
  | _, _ => s

/-- Deliver every flit that no earlier DATA flit holds back; line events of a running tunnel wait for their intervals. Where no tunnel
runs, which leaves a line event without a slot, the model applies it as it is delivered (DESIGN CHOICE,
notes/assumptions/136.md). -/
def pump : Nat → Nat → Nat → State → State
  | 0, _, _, s => s
  | f + 1, ip, n, s =>
    let l := (s.portAt ip).link
    match (l.cells.takeWhile (fun c => c.typ != 1 && seqUpTo c.seq l.ack)).find? (fun c => !(c.isLine && l.tunnel == 1)) with
    | none => s
    | some c =>
      pump f ip n (deliverCell ip n c (s.modLink ip (fun l => { l with
        cells := l.cells.filter (fun x => x.seq != c.seq), delivered := if seqBefore l.delivered c.seq then c.seq else l.delivered })))

/-! ### Acceptance (R200, R201, R212, R221) -/

/-- The I→D content of an accepted flit reaches capture (R36, R259). -/
def tapAccepted (n : Nat) (c : RxCell) (s : State) : State :=
  let m := (s.pathAt n).dataMode
  if !(m == .observe || m == .verdict) then s
  else if c.typ = 1 then captureLine n 0 c.interval c.payload s
  else if c.isLine then (lineEntries c.payload).foldl (fun s e => captureEvent n 0 e s) s
  else s

/-- ack_seq moves over every flit that is resolved (R200, R208); a DATA flit whose index is not the expected one is refused
(R221). -/
def advance : Nat → Nat → Nat → State → State
  | 0, _, _, s => s
  | f + 1, ip, n, s =>
    let l := (s.portAt ip).link
    let q := l.ack + 1
    if l.got.any (fun g => g.1 == q) then
      let s := s.modLink ip (fun l => { l with got := l.got.filter (fun g => g.1 != q), nakAt := l.nakAt.filter (fun g => seqBefore q g.1) })
      match l.cells.find? (fun c => c.seq == q) with
      | none => advance f ip n (s.modLink ip (fun l => { l with ack := q }))
      | some c =>
        if c.typ = 1 ∧ c.interval % 128 ≠ l.rxCount % 128 then
          linkError n (refuseFlit ip n q (s.modLink ip (fun l => { l with cells := l.cells.filter (fun x => x.seq != q) })))
        else
          let c := { (if c.typ = 1 then { c with interval := l.rxCount } else c) with readyAt := s.now }
          let s := s.modLink ip (fun l => { l with
            ack := q, rxCount := if c.typ = 1 then (l.rxCount + 1) % 2 ^ 32 else l.rxCount,
            cells := l.cells.map (fun x => if x.seq == q then c else x) })
          advance f ip n (tapAccepted n c s)
    else
      match l.refuse.find? (fun r => r.seq == q) with
      | none => s
      | some r =>
        match r.report with
        | none => s
        | some rep =>
          if seqUpTo rep l.peerAck then
            advance f ip n (s.modLink ip (fun l => { l with ack := q, refuse := l.refuse.filter (fun x => x.seq != q) }))
          else s

/-- `advance` as far as it goes, and what it lets be delivered. -/
def settleRx (ip n : Nat) (s : State) : State :=
  let l := (s.portAt ip).link
  let s := advance (l.got.length + l.refuse.length + 1) ip n s
  pump ((s.portAt ip).link.cells.length + 1) ip n s

/-- Insert a cell in sequence order after ack_seq `a`. -/
def putCell (a : Seq) (c : RxCell) : List RxCell → List RxCell
  | [] => [c]
  | x :: t => if seqUpTo x.seq a || decide (seqDist a x.seq < seqDist a c.seq) then x :: putCell a c t else c :: x :: t

/-- A range of I→D flits that the partner declares void is resolved without content (R233). -/
def voidRange (ip : Nat) (a b : Seq) (s : State) : State :=
  let l := (s.portAt ip).link
  let qs := ((List.range (seqDist a b + 1)).map (fun i => a + BitVec.ofNat 24 i)).filter (fun q =>
    seqBefore l.ack q && !(l.got.any (fun g => g.1 == q)))
  s.modLink ip (fun l => { l with got := l.got ++ qs.map (fun q => (q, s.now + ns * s.gapNs ip)) })

/-- What takes effect at the acceptance itself: a void range, and the partner's refusals, which the Logbook records (R233,
R200, R240). -/
def onAccept (ip n : Nat) (h : Hdr) (pl : List Byte) (s : State) : State :=
  if h.typ = 6 ∧ (field pl 3 1) % 4 = 2 ∧ field pl 12 6 ≠ 2 ^ 48 - 1 then
    voidRange ip (BitVec.ofNat 24 (field pl 12 3)) (BitVec.ofNat 24 (field pl 15 3)) s
  else if h.typ = 2 ∧ h.cls = 2 then
    (refuseRanges pl).foldl (fun s r =>
      reportRefused n 1 r.1.toNat r.2.toNat (s.modLink ip (fun l => { l with peerRefused := l.peerRefused ++ [r] }))) s
  else s

/-- A DATA flit of interval `k` arrives (R225, R226): it anchors the timeline, or is late. Where only a retransmission of the anchoring
flit is accepted, its first transmission is taken to be the first flit that was lost since the tunnel start (DESIGN CHOICE,
notes/assumptions/137.md). -/
def arrive (ip n k : Nat) (rp : Bool) (s : State) : State :=
  let p := s.pathAt n
  match s.nominal n k with
  | some a =>
    if !rp && decide (a < s.now) then s.modCnt ip (fun c => { c with late := satAdd (2 ^ 32 - 1) c.late 1 }) else s
  | none =>
    let first := if rp then p.firstLost.getD s.now else s.now
    if k = p.anchor.1 then s.modPath n (fun p => { p with timeline := some (max first p.anchor.2, k), firstLost := none }) else s

/-- The index of an I→D DATA flit with number `q` and tunnel index `lf` (R221, R226): of the indices that agree with it modulo 128,
the highest that the numbers behind it allow, those of accepted flits of other types apart. -/
def LinkSt.indexOf (l : LinkSt) (q : Seq) (lf : Nat) : Nat :=
  let others := (l.cells.filter (fun c => c.typ != 1 && seqBefore l.ack c.seq && seqBefore c.seq q)).length
  let room := seqDist l.ack q - 1 - others
  let off := (lf % 128 + 128 - l.rxCount % 128) % 128
  (l.rxCount + off + (room - off) / 128 * 128) % 2 ^ 32

/-- A valid sequenced flit in its window is accepted, refused, or left to return by replay (R209, R212). -/
def acceptFlit (ip n : Nat) (hw : BitVec 96) (pl : List Byte) (s : State) : State :=
  let h := hdrOf hw
  let l := (s.portAt ip).link
  let s := if h.typ = 2 ∧ h.cls = 6 ∧ s.gon.fwReady ∧ s.refuses ip n h then raise (srcGlobal 60) s else s
  if s.refuses ip n h then settleRx ip n (refuseFlit ip n h.seq s)
  else if h.typ = 1 ∧ h.seq = l.ack + 1 ∧ h.lf % 128 ≠ l.rxCount % 128 then
    settleRx ip n (linkError n (refuseFlit ip n h.seq s))
  else if s.toDCells n ≤ l.cells.length then s.modCnt ip (fun c => { c with noCell := satAdd (2 ^ 32 - 1) c.noCell 1 })
  else
    let k := if h.typ = 1 then l.indexOf h.seq h.lf else 0
    let s := if h.typ = 1 then arrive ip n k h.rp s else s
    let c : RxCell := { seq := h.seq, typ := h.typ, cls := if h.typ = 2 then h.cls else 0, interval := k, payload := fit 256 0 pl,
                        header := hw, nominal := if h.typ = 1 then s.nominal n k else none,
                        cell := freeCell (s.toDCells n) (l.cells.map (·.cell)) }
    let s := s.modLink ip (fun l => { l with got := l.got ++ [(h.seq, s.now + ns * s.gapNs ip)], cells := putCell l.ack c l.cells })
    settleRx ip n (onAccept ip n h pl s)

/-- A valid sequenced flit (R202, R212). -/
def takeSequenced (ip n : Nat) (hw : BitVec 96) (pl : List Byte) (s : State) : State :=
  let h := hdrOf hw
  let l := (s.portAt ip).link
  let d := seqDist l.ack h.seq
  if l.refuse.any (fun r => r.seq == h.seq) then s
  else if d = 0 ∨ 2 ^ 23 < d ∨ l.got.any (fun g => g.1 == h.seq) then
    s.modCnt ip (fun c => { c with dup := satAdd (2 ^ 32 - 1) c.dup 1 })
  else if d = 2 ^ 23 then linkError n s
  else acceptFlit ip n hw pl s

/-! ### Acknowledgements of the partner (R200, R208) -/

/-- Own flits up to `a` are resolved at the partner: their cells are freed. An earlier acknowledgement is ignored. -/
def takeAck (ip n : Nat) (a : Seq) (s : State) : State :=
  let l := (s.portAt ip).link
  if seqBefore a l.peerAck then s else
  let s := s.modLink ip (fun l => { l with
    peerAck := a, unres := l.unres.filter (fun f => !seqUpTo f.seq a), peerRefused := l.peerRefused.filter (fun r => !seqUpTo r.2 a) })
  fatalPort ip (settleRx ip n s)

/-! ### Reception -/

/-- A flit that R194 names is discarded (R194). -/
def malformed (ip n : Nat) (s : State) : State :=
  linkError n (s.modCnt ip (fun c => { c with malformed := satAdd (2 ^ 32 - 1) c.malformed 1 }))

/-- The lane at a port position is one whose flits the receiver uses (R197). -/
def State.hears (s : State) (ip pos : Nat) : Bool := decide (pos < s.ipLanes ip) && (s.laneAt (s.ipLane ip pos)).eligible

/-- The beat index nearest the device's own whose low 16 bits are `lo` (R68). -/
def rebuildIndex (own lo : Nat) : Nat :=
  let base := own / 65536 * 65536 + lo % 65536
  if base + 32768 ≤ own then base + 65536 else if own + 32768 < base then base - 65536 else base

/-- A valid flit has been heard (R68, R192, R241); the ladder's DONE needs no more repetition. -/
def heard (ip : Nat) (h : Hdr) (s : State) : State :=
  let s := s.modPort ip (fun p => { p with
    link := { p.link with heardAt := s.now, silent := false },
    cnt := { p.cnt with peerHop := BitVec.ofNat 2 h.hop, peerIndex := rebuildIndex s.beat.index h.beatLo, peerPhase := h.phase } })
  if h.typ = 2 ∧ h.cls = 0 then s else s.modLad ip (fun l => { l with sends := [] })

/-- The wire bytes of a received flit: polarity, precoding and Gray code undone (R72, R73, R92, R188). -/
def State.flitBytes (s : State) (ip : Nat) (flit : RxFlit) : List Byte :=
  let x := s.laneAt (s.ipLane ip flit.pos.val)
  let flip (v : Nat) : Nat := if x.rxInv then 3 - v else v
  let lv := flit.levels.map (fun v => flip v.val)
  packBits 288 (bitsOfLevels true (if x.precRx then unprecode (flip flit.before.val) lv else lv))

/-- What a lane of port `ip` receives (R191). -/
def State.readFlit (s : State) (ip : Nat) (flit : RxFlit) : FlitRead := flitRead (s.flitBytes ip flit)

/-- The lane flit index of a received flit: the count of the anchor word before it, and its place after it (R198). -/
def State.flitIndex (s : State) (ip : Nat) (flit : RxFlit) : FlitIndex :=
  let x := s.laneAt (s.ipLane ip flit.pos.val)
  { n := x.count + BitVec.ofNat 16 x.misses, f := BitVec.ofNat 14 ((flit.sym - (x.matchPos + 64)) / 1152) }

/-- The lane flit index after `i` (R79, R198). -/
def nextFlitIdx (i : FlitIndex) : BitVec 16 × BitVec 14 := if i.f = 16383 then (i.n + 1, 0) else (i.n, i.f + 1)

/-- A flit has come in whole on its lane, valid or lost: its place is known, and corrected symbols count (R100, R198). -/
def tookFlit (ip : Nat) (flit : RxFlit) (corrected : Nat) (s : State) : State :=
  let i := s.flitIndex ip flit
  s.modLane (s.ipLane ip flit.pos.val) (fun x => { x with
    rxIdx := nextFlitIdx i, rsCorr := satAdd (2 ^ 32 - 1) x.rsCorr corrected })

/-- A flit fails step 1 or 2 of R191: it is counted, and a LOST entry is due (R203, R204). -/
def lostFlit (ip n : Nat) (flit : RxFlit) (crc : Bool) (s : State) : State :=
  let m := 2 ^ 32 - 1
  let i := s.flitIndex ip flit
  let s := s.modCnt ip (fun c => if crc then { c with lostCrc := satAdd m c.lostCrc 1 } else { c with lostRs := satAdd m c.lostRs 1 })
  let s := s.modPath n (fun p => if p.timeline.isNone then { p with firstLost := p.firstLost.or (some s.now) } else p)
  s.modLink ip (fun l => { l with naks := l.naks ++ [nakWord (.lost flit.pos.val i.n.toNat i.f.toNat)] })

/-- A flit reaches the I port of slot `ip` with its first symbol at `t` (R191): `want` says which flits the command is about,
`act` what a valid unsequenced one does; a sequenced one takes its way by number. A flit that does not come through is lost. -/
def rxEffect (t ip : Nat) (flit : RxFlit) (want : Hdr → List Byte → Bool) (act : Nat → Hdr → List Byte → State → State) (s : State) : State :=
  let s := s.at t
  match s.linkPath ip with
  | none => s
  | some n =>
    if !s.hears ip flit.pos.val then s else
    match s.readFlit ip flit with
    | .lost crc => lostFlit ip n flit crc (tookFlit ip flit 0 s)
    | .got hw pl corrected =>
      let h := hdrOf hw
      let s := tookFlit ip flit corrected s
      if !s.flitOk n false h pl then malformed ip n s
      else if !want h pl then s
      else
        let s := takeAck ip n h.ack (heard ip h s)
        if h.sequenced then act n h pl (takeSequenced ip n hw pl s) else act n h pl s

/-- The outcome of a flit's reception. -/
def rxFlit (t ip : Nat) (flit : RxFlit) (want : Hdr → List Byte → Bool) (act : Nat → Hdr → List Byte → State → State) :
    State → Host.Outcome State Fault Refusal := live (rxEffect t ip flit want act)

/-- A received flit of one type, and of one class in a CTRL flit. -/
def ofType (typ cls : Nat) (h : Hdr) (_ : List Byte) : Bool := h.typ == typ && (h.typ != 2 || h.cls == cls)

/-- The outcome of the reception of a sequenced flit of a type and class: its way goes by number. -/
def rxSequenced (t ip : Nat) (flit : RxFlit) (typ cls : Nat) : State → Host.Outcome State Fault Refusal :=
  rxFlit t ip flit (ofType typ cls) (fun _ _ _ s => s)

end Sys2Proof.Machine
end

