-- ==== Sys2Proof/Machine/Tx.lean ====
section
/-! DEFINITION. The sending side of a Qormos link: what is due at a lane's flit boundary (R196), the content of ACK, NAK, IDLE,
BEATECHO and CTRL flits (R201, R203, R216, R231, R235), the framing of sequenced flits (R196, R199, R211) and their
retransmission (R205, R214). -/

namespace Sys2Proof.Machine

/-! ### Placing -/

/-- Bits [27:0] of the beat time, which a flit carries from its framing (R67, R192). No beat time exists in NONE,
for which the rules give no value: there the model sends beat_lo and phase 0 (DESIGN CHOICE, notes/assumptions/138.md). -/
def State.frameBeat (s : State) : BitVec 28 := BitVec.ofNat 28 s.beatTime

/-- The position that the image gives lane `l` of port `ip` (R77). -/
def State.homePos (s : State) (ip l : Nat) : Nat := ((s.ipPositions ip).find? (fun k => s.cfgLane ip k == l)).getD 0

/-- The anchor word with count `n` that lane `l` of a port sends: never precoded (R75-R79, R93). -/
def State.anchorOut (s : State) (ip l n : Nat) : List Nat := anchorLevels (identity (s.ipTag ip) (s.homePos ip l) l n)

/-- A flit leaves on a position at its boundary, after an anchor word where one is due (R79): precoded from the symbol before it
(R73). -/
def place (ip pos : Nat) (f : LineFlit) (s : State) : State :=
  let i := s.nextIdx ip pos
  let l := s.ipLane ip pos
  let word := if i.f = 0 then s.anchorOut ip l i.n.toNat else []
  let s := s.modLane l (fun x => { x with txMem := word.getLastD x.txMem })
  let out := s.sendLevels l (flitLevels f.header f.payload)
  let f := { f with levels := out.1, anchor := if s.txFlips l then word.map (flipLevel true) else word }
  (s.modLane l (fun x => { x with txMem := out.2 })).modPort ip (fun p => { p with
    line := p.line.set none pos (some f), txIdx := p.txIdx.set (0, 0) pos (nextFlitIdx i) })

/-- An unsequenced flit: its seq field is next_seq, in ladder messages 0 (R147, R192). -/
def State.loose (s : State) (ip typ lf : Nat) (payload : List Byte) : LineFlit :=
  let l := (s.portAt ip).link
  let ladder := decide (typ = 2 ∧ lf = 0)
  { header := hdrWord typ ((s.pathOfI ip).getD 0) false (if ladder then 0 else l.next) l.ack s.frameBeat lf,
    payload := fit 256 0 payload }

/-! ### Unsequenced CTRL messages (R147, R195, R216, R235) -/

/-- The bytes of a ladder message (R147). -/
def ladBytes (m : Nat × Nat × BitVec 18) : List Byte := bytesOf 1 m.1 ++ bytesOf 1 m.2.1 ++ bytesOf 3 m.2.2.toNat

/-- The unsequenced CTRL message due on a position: its class, its bytes, and the note that it has left there. -/
def State.dueMsg (s : State) (ip pos : Nat) : Option (Nat × List Byte × (PortSt → PortSt)) :=
  let p := s.portAt ip
  let l := p.link
  let bit := ~~~posBit pos
  match p.lad.sends.find? (fun m => hasPos (p.lad.sendDue.get 0 m.1) pos) with
  | some m => some (0, ladBytes m, fun p => { p with lad := { p.lad with sendDue := p.lad.sendDue.set 0 m.1 (p.lad.sendDue.get 0 m.1 &&& bit) } })
  | none =>
    if !p.up then none else
    match l.tunMsg.filter (fun _ => hasPos l.tunDue pos) with
    | some m => some (3, l.tunBytes m, fun p => { p with link := { p.link with tunDue := p.link.tunDue &&& bit } })
    | none =>
      match l.tunAns.filter (fun _ => hasPos l.tunAnsDue pos) with
      | some m => some (3, l.tunBytes m, fun p => { p with link := { p.link with tunAnsDue := p.link.tunAnsDue &&& bit } })
      | none =>
        match p.spare.find? (fun m => hasPos m.due pos) with
        | some m => some (4, m.bytes, fun p => { p with spare := p.spare.map (fun x => if x == m then { x with due := x.due &&& bit } else x) })
        | none =>
          (p.spareAns.find? (fun m => hasPos m.due pos)).map (fun m =>
            (4, m.bytes, fun p => { p with spareAns := p.spareAns.map (fun x => if x == m then { x with due := x.due &&& bit } else x) }))

/-- Priority 1: an unsequenced CTRL message that is due. -/
def txCtrl (ip pos : Nat) (s : State) : Option State :=
  (s.dueMsg ip pos).map (fun m => (place ip pos (s.loose ip 2 (16 * m.1) m.2.1) s).modPort ip m.2.2)

/-! ### NAK, ACK, BEATECHO, IDLE -/

/-- Priority 2: the NAK entries that are due (R203). -/
def txNak (ip pos : Nat) (s : State) : Option State :=
  let e := ((s.portAt ip).link.naks).take 32
  if e.isEmpty then none else
  some ((place ip pos (s.loose ip 4 (e.length - 1) (e.flatMap (fun v => bytesOf 8 v.toNat))) s).modLink ip (fun l =>
    { l with naks := l.naks.drop 32 }))

/-- The payload of a BEATECHO (R231). -/
def State.echoPayload (s : State) (id echo : Word) (answer : Bool) : List Byte :=
  let t := if s.beat.st = .none then 2 ^ 62 + s.preStamp % 2 ^ 60 else s.beatTime % 2 ^ 60
  bytesOf 8 (t + s.beat.st.code * 2 ^ 60) ++ bytesOf 4 id.toNat ++ bytesOf 4 echo.toNat ++ [if answer then 1 else 0]

/-- A BEATECHO leaves: an answer to the id `ans`, or the device's own (R231). -/
def sendEcho (ip pos : Nat) (ans : Option Word) (s : State) : State :=
  let l := (s.portAt ip).link
  let id := l.echoId + 1
  let pl := s.echoPayload id (ans.getD l.echoRx) ans.isSome
  (place ip pos (s.loose ip 8 0 pl) s.stamped).modLink ip (fun l => match ans with
    | some _ => { l with echoId := id, echoAns := none }
    | none => { l with echoId := id, echoDue := false, echoAt := l.echoAt ++ [(id, s.now)] })

/-- Priority 2: the answer to a received echo. -/
def txAnswer (ip pos : Nat) (s : State) : Option State :=
  ((s.portAt ip).link.echoAns).map (fun a => sendEcho ip pos (some a) s)

/-- The selective bitmap of an ACK flit (R201). -/
def LinkSt.bitmap (l : LinkSt) : List Byte :=
  packBits 256 ((List.range 2048).map (fun i => l.got.any (fun g => g.1 == l.ack + 1 + BitVec.ofNat 24 i)))

/-- Priority 5: an ACK flit that is due. -/
def txAck (ip pos : Nat) (s : State) : Option State :=
  let l := (s.portAt ip).link
  if !l.ackDue then none
  else some ((place ip pos (s.loose ip 3 0 l.bitmap) s).modLink ip (fun l => { l with ackDue := false }))

/-- Priority 6: the device's own BEATECHO. -/
def txEcho (ip pos : Nat) (s : State) : Option State :=
  if (s.portAt ip).link.echoDue then some (sendEcho ip pos none s) else none

/-- The PRBS31 register of lane `l`, newest bit first (R151): the sequence's first value is a free value. -/
def State.testReg (s : State) (l : Nat) : List Bool × State :=
  let r := (s.ltrAt l).prbs
  if !r.isEmpty then (r, s) else
  let x := s.free
  ((List.range 31).map (Nat.testBit (x.1 % (2 ^ 31 - 1) + 1)), x.2)

/-- Priority 7: IDLE (R193); in the ladder test its payload carries PRBS31, which continues from flit to flit of the lane (R151). -/
def txIdle (ip pos : Nat) (s : State) : State :=
  let d := (s.portAt ip).lad
  if !(s.portAt ip).up ∧ d.step = 6 ∧ d.testing then
    let l := s.ipLane ip pos
    let x := s.testReg l
    let r := prbs 0x48000000 2048 x.1
    place ip pos (x.2.loose ip 5 0 (packBits 256 r.1)) (x.2.modLtr l (fun t => { t with prbs := r.2.take 31 }))
  else place ip pos (s.loose ip 5 0 []) s

/-! ### Sequenced flits -/

/-- The line form of a sequenced flit (R192). -/
def TxFlit.onLine (f : TxFlit) (path : Nat) (ack : Seq) (rp : Bool) : LineFlit :=
  { header := hdrWord f.typ path rp f.seq ack f.beat f.flags.toNat, payload := fit 256 0 f.payload }

/-- The flit has left once more, on a position with an index, now, with replay_ns from then on (R198, R206). -/
def TxFlit.sent (f : TxFlit) (pos : Nat) (idx : FlitIndex) (now wait : Nat) : TxFlit :=
  { f with sends := f.sends ++ [(pos, idx.n, idx.f, now)], count := f.count + 1, due := false, dueAt := now + wait }

/-- Both copies of an unresolved flit's cell are uncorrectable (R214, R240): it is never sent again, and reported as void. -/
def poisonTx (n : Nat) (f : TxFlit) (s : State) : State :=
  let q := f.seq.toNat
  let s := s.modLink (s.pathI n) (fun l => { l with unres := l.unres.filter (fun x => x.seq != f.seq) })
  let s := s.sendFault n { source := srcPath n 2, cls := s.nextCls (srcPath n 2), dirToI := true, void := true, first := q, last := q }
  raise (srcPath n 2) (s.logEvent (reportEntry n 1 false q q f.interval))

/-- Priority 3: the unresolved flit with the lowest sequence number that is due again (R205, R206); a poisoned one leaves the
boundary to what follows. -/
def txReplay (ip pos : Nat) (s : State) : Option State :=
  let l := (s.portAt ip).link
  let i := s.nextIdx ip pos
  (l.unres.find? (fun f => f.due && (!s.pwr.fatal || f.typ == 6))).map (fun f =>
    (place ip pos (f.onLine ((s.pathOfI ip).getD 0) l.ack true) s).modLink ip (fun l =>
      { l with unres := l.unres.map (fun x => if x.seq == f.seq then x.sent pos i s.now (ns * s.replayNs ip) else x) }))

/-- A cell of the D→I region of path `n` is free (R211). -/
def State.toIRoom (s : State) (ip n : Nat) : Bool := decide ((s.portAt ip).link.unres.length < s.toICells n)

/-- The device may frame a new sequenced flit (R199, R211, R236). -/
def State.mayFrame (s : State) (ip n : Nat) : Bool :=
  let l := (s.portAt ip).link
  let oldest := (l.unres.head?.map (·.seq)).getD l.next
  l.tunnel != 2 && decide (seqDist oldest l.next < 2 ^ 23) && s.toIRoom ip n

/-- A flit waits and finds no free cell: the path raises link_error once until one is framed (R215). -/
def noRoom (ip n : Nat) (s : State) : State :=
  let l := (s.portAt ip).link
  if l.wait.isEmpty || s.toIRoom ip n || l.noRoom then s
  else linkError n (s.modLink ip (fun l => { l with noRoom := true }))

/-- What the framing of a flit does beside it: a REFUSE report takes its number (R208); a message leaves its mailbox's
queue (R486, R494). -/
def framed (ip : Nat) (f : TxFlit) (q : Seq) (s : State) : State :=
  if f.typ = 2 ∧ f.cls = 2 then
    let rs := refuseRanges f.payload
    s.modLink ip (fun l => { l with refuse := l.refuse.map (fun r =>
      if r.report.isNone && rs.any (inRange r.seq) then { r with report := some q } else r) })
  else if f.typ = 2 ∧ f.cls = 6 then
    let s := s.modMb (1 + ip) (fun b => { b with outQ := b.outQ.drop 1 })
    if (s.mbAt (1 + ip)).outQ.length = 3 then deliver (2209 + 1 + ip) s else s
  else s

/-- Priority 4: the first new sequenced flit is framed with the next sequence number (R196). After a Fatal raising only FAULT
flits are (R371). -/
def txNew (ip pos n : Nat) (s : State) : Option State :=
  if !s.mayFrame ip n then none else
  let l := (s.portAt ip).link
  match l.wait.find? (fun f => !s.pwr.fatal || f.typ == 6) with
  | none => none
  | some f =>
    let q := l.next
    let c := freeCell (s.toICells n) (l.unres.map (·.cell))
    let g := ({ f with seq := q, beat := s.frameBeat, stamped := true, cell := c } : TxFlit).sent pos (s.nextIdx ip pos) s.now (ns * s.replayNs ip)
    let s := (place ip pos (g.onLine n l.ack false) s).modLink ip (fun l =>
      { l with next := q + 1, wait := l.wait.erase f, unres := l.unres ++ [g], noRoom := false })
    some (framed ip f q s)

/-- A new flit of poisoned data takes its number and is not sent: it is reported as void (R240, R365). -/
def dropPoison (ip n : Nat) (s : State) : State :=
  match (s.portAt ip).link.wait.find? (fun f => f.poison) with
  | none => s
  | some f =>
    if !s.mayFrame ip n || s.pwr.fatal then s else
    let q := (s.portAt ip).link.next
    let s := s.modLink ip (fun l => { l with next := q + 1, wait := l.wait.erase f })
    let s := s.sendFault n { source := srcPath n 2, cls := s.nextCls (srcPath n 2), dirToI := true, void := true, first := q.toNat, last := q.toNat }
    s.logEvent (reportEntry n 1 false q.toNat q.toNat f.interval)

/-- An upload's next CHUNK flit joins when no D→I DATA flit, nor any other, waits (R275). -/
def nextChunk (ip n : Nat) (s : State) : State :=
  if !((s.portAt ip).link.wait.isEmpty) || s.pwr.fatal then s else
  (List.range 3).foldl (fun s _ =>
    if (s.portAt ip).link.wait.isEmpty then
      (match (s.uploads n).head? with
       | none => s
       | some k => uploadStep n k s)
    else s) s

/-! ### The boundary -/

/-- The position sends flits: one of the active set or of the spare pool of a link; in the ladder a lane that has switched to flits,
and an eligible one in the steps 4 to 7 (R145, R148, R196). A stopped ladder sends none (R153). -/
def State.sends (s : State) (ip pos : Nat) : Bool :=
  let p := s.portAt ip
  if p.up then hasPos p.active pos || hasPos p.pool pos
  else s.climbing ip && hasPos p.lad.eligible pos
    && (decide (4 ≤ p.lad.step) || (p.lad.step == 3 && (s.ltrAt (s.ipLane ip pos)).switched))

/-- The rate that a follower's ACCEPT names, once it has left on every eligible lane (R147, R148). -/
def LadderSt.accepted (l : LadderSt) : Option Nat :=
  if l.sendDue.get 0 6 &&& l.eligible ≠ 0 then none else (l.sends.find? (fun m => m.1 == 6)).map (·.2.1)

/-- A retransmission whose cell's two copies are uncorrectable is reported first, and is not sent (R214). -/
def readReplay (ip n : Nat) (r : ReelRead) (s : State) : State :=
  match ((s.portAt ip).link.unres.find? (fun f => f.due && (!s.pwr.fatal || f.typ == 6))) with
  | none => s
  | some f =>
    let s := reelRead (s.cellPlace n .toI f.cell) r s
    if r.badA && r.badB then poisonTx n f s else s

/-- The first of the attempts that places a flit, else IDLE. -/
def firstPlaced (as : List (State → Option State)) (idle : State → State) (s : State) : State :=
  match as.findSome? (fun a => a s) with
  | some t => t
  | none => idle s

/-- A flit boundary of position `pos` on a running link (R196). -/
def txBoundary (ip pos n : Nat) (read : ReelRead) (s : State) : State :=
  let idle := txIdle ip pos
  if !hasPos (s.portAt ip).active pos then
    firstPlaced (if s.pwr.fatal then [] else [txCtrl ip pos]) idle s
  else if s.pwr.fatal then
    firstPlaced [txReplay ip pos, txNew ip pos n] idle (readReplay ip n read s)
  else
    match [txCtrl ip pos, txNak ip pos, txAnswer ip pos].findSome? (fun a => a s) with
    | some t => t
    | none =>
      let s := noRoom ip n (nextChunk ip n (dropPoison ip n (readReplay ip n read s)))
      firstPlaced [txReplay ip pos, txNew ip pos n, txAck ip pos, txEcho ip pos] idle s

/-- FLIT_TX_BOUNDARY (R196): a lane of the port takes its next flit. -/
def execFlitTxBoundary (t : Nat) (ip : PortNo) (pos : Fin 18) (bad : Bool × Bool) (corrected : Option Nat) := live (fun s =>
  let s := s.at t
  let read : ReelRead := { badA := bad.1, badB := bad.2, corrected := corrected }
  let ip := ip.val
  if !s.sends ip pos.val then s
  else if (s.portAt ip).up then
    match s.pathOfI ip with
    | none => s
    | some n => txBoundary ip pos.val n read s
  else match (s.portAt ip).lad.accepted with
    | some r => ladChange ip r s
    | none => firstPlaced [txCtrl ip pos.val] (txIdle ip pos.val) s)

end Sys2Proof.Machine
end

