-- ==== Sys2Proof/Machine/Link.lean ====
section
/-! DEFINITION. The commands of a running Qormos link: received flits by type (R191-R209), NAK and replay (R203-R207), beat echo
(R231, R232), the timers (R201, R204, R206, R219, R231, R235, R241), lane drops and swaps (R165-R170, R216-R219), and the
tunnel's start and resume (R235-R238). -/

namespace Sys2Proof.Machine

/-! ### Sequenced flits -/

/-- A Reel cell of the port holds DATA flit `q`. -/
def State.hasData (s : State) (ip : Nat) (q : Seq) : Bool := (s.portAt ip).link.cells.any (fun c => c.typ = 1 && c.seq == q)

/-- DATA (R221); the protocol decoder takes the units that an accepted flit completes (R270). -/
def execData (t : Nat) (ip : PortNo) (flit : RxFlit) (units : List DecUnit) := live (fun s =>
  let u := rxEffect t ip.val flit (ofType 1 0) (fun _ _ _ s => s) s
  match s.readFlit ip.val flit with
  | .lost _ => u
  | .got hw _ _ =>
    let q := (hdrOf hw).seq
    if !s.hasData ip.val q && u.hasData ip.val q then
      units.foldl (fun s x => headerMatch ((s.pathOfI ip.val).getD 0) 0 x s) u
    else u)

/-- LINE_EVENT (R223). -/
def execLineEvent (t : Nat) (ip : PortNo) (flit : RxFlit) := rxSequenced t ip.val flit 2 1
/-- REFUSE (R208). -/
def execRefuse (t : Nat) (ip : PortNo) (flit : RxFlit) := rxSequenced t ip.val flit 2 2
/-- FAULT_FLIT (R233). -/
def execFaultFlit (t : Nat) (ip : PortNo) (flit : RxFlit) := rxSequenced t ip.val flit 6 0
/-- MARK (R234). -/
def execMark (t : Nat) (ip : PortNo) (flit : RxFlit) := rxSequenced t ip.val flit 7 0
/-- EXPECT_CHUNK (R274). -/
def execExpectChunk (t : Nat) (ip : PortNo) (flit : RxFlit) := rxSequenced t ip.val flit 2 9
/-- A CAPTURE message with one op (R275). -/
def rxCapture (t ip : Nat) (flit : RxFlit) (op : Nat) : State → Host.Outcome State Fault Refusal :=
  rxFlit t ip flit (fun h pl => ofType 2 8 h pl && field pl 0 1 == op) (fun _ _ _ s => s)
/-- UPLOAD (R275). -/
def execUpload (t : Nat) (ip : PortNo) (flit : RxFlit) := rxCapture t ip.val flit 1
/-- CAPTURE_RELEASE (R275). -/
def execCaptureRelease (t : Nat) (ip : PortNo) (flit : RxFlit) := rxCapture t ip.val flit 2
/-- STATUS_REQ (R275). -/
def execStatusReq (t : Nat) (ip : PortNo) (flit : RxFlit) := rxCapture t ip.val flit 3
/-- MAILBOX_FLIT (R495). -/
def execMailboxFlit (t : Nat) (ip : PortNo) (flit : RxFlit) := rxSequenced t ip.val flit 2 6
/-- SCHED_CTRL_FLIT (R534). -/
def execSchedCtrlFlit (t : Nat) (ip : PortNo) (flit : RxFlit) := rxSequenced t ip.val flit 2 5
/-- IDLE (R193): it carries the acknowledgement of every header. -/
def execIdle (t : Nat) (ip : PortNo) (flit : RxFlit) := rxSequenced t ip.val flit 5 0

/-- FLIT_MALFORMED (R194); a ladder message of another code is ignored and counted (R147). -/
def execFlitMalformed (t : Nat) (ip : PortNo) (flit : RxFlit) := live (fun s =>
  match s.readFlit ip.val flit with
  | .lost _ => s.at t
  | .got hw pl _ =>
    let h := hdrOf hw
    let op := field pl 0 1
    if h.typ = 2 ∧ h.cls = 0 then
      if (op = 0 ∨ 8 < op) ∧ 4 ≤ (s.portAt ip.val).lad.step then
        (s.at t).modLad ip.val (fun l => { l with badSets := satAdd (2 ^ 32 - 1) l.badSets 1 })
      else s.at t
    else rxEffect t ip.val flit (fun _ _ => false) (fun _ _ _ s => s) s)

/-! ### Loss and replay -/

/-- A flit on position `pos` from symbol `sym` on, by the levels of the symbol before it and of its own symbols. -/
def lineFlit (pos : Fin 18) (sym : Nat) (line : List (Fin 4)) : RxFlit :=
  { pos := pos, sym := sym, before := line.headD 0, levels := line.tail }

/-- FLIT_LOST (R191, R204): the flit fails RS decoding or its CRC. -/
def execFlitLost (t : Nat) (ip : PortNo) (pos : Fin 18) (sym : Nat) (line : List (Fin 4)) := live (fun s =>
  let flit := lineFlit pos sym line
  match s.readFlit ip.val flit with
  | .lost _ => rxEffect t ip.val flit (fun _ _ => false) (fun _ _ _ s => s) s
  | .got _ _ _ => s.at t)

/-- The flit is due again. -/
def TxFlit.again (f : TxFlit) : TxFlit := { f with due := true }

/-- A flit was sent on a position at an index. -/
def TxFlit.wasAt (f : TxFlit) (pos n i : Nat) : Bool := f.sends.any (fun x => x.1 == pos && x.2.1.toNat == n && x.2.2.1.toNat == i)

/-- A flit was sent on a position at or after an index, counted modulo 2^30 (R198). -/
def TxFlit.wasAfter (f : TxFlit) (pos n i : Nat) : Bool :=
  f.sends.any (fun x => x.1 == pos && decide ((idxVal x.2.1.toNat x.2.2.1.toNat + 2 ^ 30 - idxVal n i) % 2 ^ 30 < 2 ^ 29))

/-- The flit has been sent `limit` times, which link_error has not named yet (R207). -/
def TxFlit.worn (limit : Nat) (f : TxFlit) : Bool := decide (limit ≤ f.count) && !f.limit

/-- Unresolved flits that meet a test are due again (R205, R206). Those sent replay_limit times raise link_error once: the model
raises it as the next retransmission falls due (DESIGN CHOICE, notes/assumptions/139.md). -/
def replayWhere (ip : Nat) (p : TxFlit → Bool) (s : State) : State :=
  let worn (f : TxFlit) : Bool := p f && f.worn (s.replayLimit ip)
  let fs := (s.portAt ip).link.unres
  let s := s.modLink ip (fun l => { l with unres := fs.map (fun f => if p f then { f.again with limit := f.limit || worn f } else f) })
  match s.pathOfI ip with
  | none => s
  | some n => if fs.any worn then linkError n s else s

/-- What a NAK entry asks for (R205). -/
def takeNak (ip : Nat) (e : NakEnt) (s : State) : State :=
  match e with
  | .lost pos n i =>
    if (s.portAt ip).link.unres.any (fun f => f.wasAt pos n i) then replayWhere ip (fun f => f.wasAt pos n i) s
    else s.modCnt ip (fun c => { c with nakIdle := satAdd (2 ^ 32 - 1) c.nakIdle 1 })
  | .seq a b => replayWhere ip (fun f => inRange f.seq (a, b)) s
  | .lane pos n i => replayWhere ip (fun f => f.wasAfter pos n i) s

/-- The partner's transmissions on position `pos` from an index on are lost: they are sent again (R205, R217). -/
def replayFrom (ip pos : Nat) (lost : Option FlitIndex) (s : State) : State :=
  match lost with
  | none => s
  | some i => takeNak ip (.lane pos i.n.toNat i.f.toNat) s

/-- NAK (R203, R205). -/
def execNak (t : Nat) (ip : PortNo) (flit : RxFlit) :=
  rxFlit t ip.val flit (ofType 4 0) (fun _ h pl s =>
    ((nakEntries h pl).getD []).foldl (fun s e => takeNak ip.val e s) s)

/-- ACK (R201): its bitmap shows flits accepted above ack_seq. -/
def execAck (t : Nat) (ip : PortNo) (flit : RxFlit) :=
  rxFlit t ip.val flit (ofType 3 0) (fun _ h pl s =>
    s.modLink ip.val (fun l => { l with unres := l.unres.map (fun f =>
      let i := seqDist (h.ack + 1) f.seq
      if i < 2048 ∧ bitAt pl i then { f with sel := true } else f) }))

/-- REPLAY_TIMEOUT (R206, R207): replay_ns has passed since a flit's last transmission and nothing shows it accepted. -/
def execReplayTimeout (t : Nat) (ip : PortNo) (seq : Seq) := live (fun s =>
  let s := s.at t
  match s.linkPath ip.val, (s.portAt ip.val).link.unres.find? (fun f => f.seq == seq) with
  | some _, some f =>
    if f.sel ∨ s.now < f.dueAt then s else replayWhere ip.val (fun x => x.seq == seq) s
  | _, _ => s)

/-- Numbers not resolved between ack_seq and the latest accepted flit (R204). -/
def LinkSt.holes (l : LinkSt) : List Seq :=
  let top := l.got.foldl (fun a g => max a (seqDist l.ack g.1)) 0
  ((List.range top).map (fun i => l.ack + 1 + BitVec.ofNat 24 i)).filter (fun q =>
    !(l.got.any (fun g => g.1 == q)) && !(l.refuse.any (fun r => r.seq == q)))

/-- GAP_TIMER (R204): a SEQ entry for each number that is still missing gap_ns after a later flit was accepted, and every
gap_ns from then on. -/
def execGapTimer (t : Nat) (ip : PortNo) := live (fun s =>
  let s := s.at t
  let l := (s.portAt ip.val).link
  if (s.linkPath ip.val).isNone then s else
  let due := l.holes.filter (fun q =>
    l.got.any (fun g => seqBefore q g.1 && decide (g.2 ≤ s.now))
      && (match l.nakAt.find? (fun x => x.1 == q) with | none => true | some x => decide (x.2 ≤ s.now)))
  s.modLink ip.val (fun l => { l with
    naks := l.naks ++ due.map (fun q => nakWord (.seq q q)),
    nakAt := l.nakAt.filter (fun x => !due.contains x.1) ++ due.map (fun q => (q, s.now + ns * s.gapNs ip.val)) }))

/-- ACK_TIMER (R201): while an accepted flit is not contiguous with ack_seq, an ACK flit is due every 1 µs. -/
def execAckTimer (t : Nat) (ip : PortNo) := live (fun s =>
  let s := s.at t
  if (s.linkPath ip.val).isNone || (s.portAt ip.val).link.got.isEmpty || decide (s.now < (s.portAt ip.val).link.ackNext) then s
  else s.modLink ip.val (fun l => { l with ackDue := true, ackNext := s.now + us }))

/-- LINK_SILENCE (R241): no valid flit for 10 µs. -/
def execLinkSilence (t : Nat) (ip : PortNo) := live (fun s =>
  let s := s.at t
  let l := (s.portAt ip.val).link
  match s.linkPath ip.val with
  | none => s
  | some n =>
    if l.silent ∨ s.now < l.heardAt + 10 * us then s
    else linkError n (s.modLink ip.val (fun l => { l with silent := true })))

/-! ### Beat echo -/

/-- ECHO_TIMER (R231): every echo_us, the first as the link comes up (DESIGN CHOICE, notes/assumptions/146.md); a running timer keeps
the echo_us that it started with (R242). -/
def execEchoTimer (t : Nat) (ip : PortNo) := live (fun s =>
  let s := s.at t
  if (s.linkPath ip.val).isNone || decide (s.now < (s.portAt ip.val).link.echoNext) then s
  else s.modLink ip.val (fun l => { l with echoDue := true, echoNext := s.now + us * s.echoUs ip.val }))

/-- The answer to the device's echo `id` has come now (R232). -/
def takeAnswer (ip n : Nat) (id : Word) (s : State) : State :=
  match (s.portAt ip).link.echoAt.find? (fun x => x.1 == id) with
  | none => s
  | some x =>
    let d := s.now - x.2 + bitsTime 2304 (qRate (s.portAt ip).lad.rate)
    let s := s.modLink ip (fun l => { l with echoAt := l.echoAt.filter (fun y => y.1 != id) })
    let s := s.modCnt ip (fun c => { c with rttLast := d / ns, rttMax := max c.rttMax (d / ns) })
    if ns * s.rtNs ip < d then raise (srcPath n 11) s else s

/-- BEATECHO (R231, R232). -/
def execBeatEcho (t : Nat) (ip : PortNo) (flit : RxFlit) :=
  rxFlit t ip.val flit (ofType 8 0) (fun n _ pl s =>
    let id := BitVec.ofNat 32 (field pl 8 4)
    let s := s.modCnt ip.val (fun c => { c with peerBeat := BitVec.ofNat 64 (field pl 0 8) })
    let s := s.modLink ip.val (fun l => { l with echoRx := id })
    if field pl 16 1 = 1 then takeAnswer ip.val n (BitVec.ofNat 32 (field pl 12 4)) s
    else s.modLink ip.val (fun l => { l with echoAns := some id }))

/-! ### The tunnel (R235-R238) -/

/-- The tunnel of path `n` runs from interval 0 in both directions (R225, R235), in the Guard family outside the safe state and
DRAIN. -/
def tunnelRuns (ip n : Nat) (s : State) : State :=
  let p := s.pathAt n
  let s := s.modCnt ip (fun c => { c with rttLast := 0, rttMax := 0 })
  if !p.mode.guardFam || p.safe || p.phase == .drain then s else
  let s := s.modLink ip (fun l => { l with tunnel := 1, rxCount := 0 })
  s.modPath n (fun p => { p with anchor := (0, 0), timeline := none, playNext := 0, packK := 0, packOff := 0, packBits := [],
                                 packArr := [], lostRun := none, capK := 0, capBits := [], played := none, playedEv := [],
                                 firstLost := none })

/-- The partner holds no link state (R238): the retained flits of both directions are freed and reported, and both sequence
spaces restart. -/
def partnerFresh (ip n : Nat) (s : State) : State :=
  let l := (s.portAt ip).link
  let r : FaultRep := { source := srcGlobal 85, cls := 0 }
  let ks := (l.cells.filter (fun c => c.typ = 1)).map (·.interval)
  let s := match l.cells.head?, l.cells.getLast? with
    | some a, some b =>
      (s.sendFault n { r with first := a.seq.toNat, last := b.seq.toNat, firstK := ks.head?.getD r.firstK,
                              lastK := ks.getLast?.getD r.lastK }).logEvent
        (reportEntry n 0 false a.seq.toNat b.seq.toNat (ks.head?.getD 0))
    | _, _ => s
  let s := reportUnres n (srcGlobal 85) s
  s.modLink ip (fun l => { l with
    next := 1, ack := 0, peerAck := 0, got := [], nakAt := [], refuse := [], peerRefused := [], cells := [], delivered := 0,
    rxCount := 0, naks := [], tunnel := 0, fresh := true })

/-- A TUNNEL message repeats one of its op that was acted on (R195): its bytes are the same, or, as the numbers that it carries go on
while it is repeated, it belongs to an exchange that stands. -/
def LinkSt.repeats (l : LinkSt) (pl : List Byte) : Bool :=
  let op := field pl 0 1
  match l.tunRx.get none op with
  | none => false
  | some b => b == pl.take 16 || op != 1 || (l.tunnel == 1 && l.rxCount == 0)

/-- The answer to a TUNNEL message, on every eligible lane. -/
def answerTunnel (ip op : Nat) (fresh : Bool) (s : State) : State :=
  s.modLink ip (fun l => { l with tunAns := some (op, if fresh then 1 else 0, 0, 0), tunAnsDue := 0x3FFFF })

/-- A TUNNEL message with one op is received: repeats are answered again; a new one is acted on. -/
def rxTunnel (t ip : Nat) (flit : RxFlit) (op : Nat) (act : Nat → List Byte → State → State) :
    State → Host.Outcome State Fault Refusal :=
  rxFlit t ip flit (fun h pl => ofType 2 3 h pl && field pl 0 1 == op) (fun n _ pl s =>
    if (s.portAt ip).link.repeats pl then
      s.modLink ip (fun l => { l with tunAnsDue := if l.tunAns.any (fun a => a.1 == op + 1) then 0x3FFFF else l.tunAnsDue })
    else act n pl (s.modLink ip (fun l => { l with tunRx := l.tunRx.set none op (some (pl.take 16)) })))

/-- The message has its fresh flag set (R235). -/
def freshFlag (pl : List Byte) : Bool := field pl 1 1 == 1

/-- TUNNEL_START (R235, R238). -/
def execTunnelStart (t : Nat) (ip : PortNo) (flit : RxFlit) := rxTunnel t ip.val flit 1 (fun n pl s =>
  let s := if freshFlag pl && !(s.portAt ip.val).link.fresh then partnerFresh ip.val n s else s
  let fresh := (s.portAt ip.val).link.fresh
  (answerTunnel ip.val 2 fresh (tunnelRuns ip.val n s)).modLink ip.val (fun l => { l with fresh := false }))

/-- START_ACK (R235): it answers the device's own START. -/
def execStartAck (t : Nat) (ip : PortNo) (flit : RxFlit) := rxTunnel t ip.val flit 2 (fun n pl s =>
  let l := (s.portAt ip.val).link
  match l.tunMsg with
  | some (1, _, _, _) =>
    let s := if freshFlag pl && !l.fresh then partnerFresh ip.val n s else s
    let s := s.modLink ip.val (fun l => { l with tunMsg := none, fresh := false })
    if (s.portAt ip.val).link.tunnel = 1 then s else tunnelRuns ip.val n s
  | _ => linkError n s)

/-- The exchange of RESUME messages is complete (R236, R237): each unresolved flit is sent again; in the Guard family the
retained intervals play before the first new one, and their missed slots are reported. -/
def resumeDone (ip n : Nat) (s : State) : State :=
  let l := (s.portAt ip).link
  if !(l.resGot && l.resAcked && l.tunnel == 2) then s else
  let p := s.pathAt n
  let plan := s.resumePlan n
  let run := p.mode.guardFam && !p.safe && p.phase != .drain
  let s := replayWhere ip (fun f => !f.sel) (s.modLink ip (fun l => { l with
    tunnel := if run then 1 else 0, rxCount := if run then plan.1 else l.rxCount }))
  if !run then s else
  let s := s.modPath n (fun p => { p with timeline := none, anchor := (plan.1, s.now + ns * plan.2 - ns * (s.rtNs ip / 2)) })
  let kept := l.cells.filter (fun c => c.typ = 1 && decide (kAfter p.playNext c.interval < kAfter p.playNext plan.1))
  match kept.head?, kept.getLast? with
  | some a, some b =>
    (s.sendFault n { source := srcPath n 1, cls := 0, first := a.seq.toNat, last := b.seq.toNat, firstK := a.interval,
                     lastK := b.interval }).logEvent (reportEntry n 0 false a.seq.toNat b.seq.toNat a.interval)
  | _, _ => s

/-- RESUME (R236-R238). -/
def execResume (t : Nat) (ip : PortNo) (flit : RxFlit) := rxTunnel t ip.val flit 3 (fun n pl s =>
  let ack : Seq := BitVec.ofNat 24 (field pl 5 3)
  if freshFlag pl then
    startTunnel n (answerTunnel ip.val 4 true (partnerFresh ip.val n s))
  else if (s.portAt ip.val).link.tunnel ≠ 2 then linkError n s
  else
    let s := takeAck ip.val n ack s
    resumeDone ip.val n ((answerTunnel ip.val 4 false s).modLink ip.val (fun l => { l with resGot := true })))

/-- RESUME_ACK (R236). -/
def execResumeAck (t : Nat) (ip : PortNo) (flit : RxFlit) := rxTunnel t ip.val flit 4 (fun n pl s =>
  match (s.portAt ip.val).link.tunMsg with
  | some (3, _, _, _) =>
    let s := takeAck ip.val n (BitVec.ofNat 24 (field pl 5 3)) s
    resumeDone ip.val n (s.modLink ip.val (fun l => { l with tunMsg := none, resAcked := true }))
  | _ => linkError n s)

/-! ### Lane drops and swaps (R165-R170, R216-R219) -/

/-- The cause code of a drop, none where none of R165's reasons holds: the lane is not eligible any more, or it raised ber_high or
tx_short. Of several the model names the first in the order of R216's codes (DESIGN CHOICE, notes/assumptions/157.md). -/
def dropCode (lost ber short : Bool) : Option Nat :=
  if lost then some 1 else if ber then some 2 else if short then some 3 else none

/-- Position `pos` leaves the active set and the pool (R165), with an entry when it was in the active set. -/
def dropPos (ip pos other : Nat) (s : State) : State :=
  let bit := posBit pos
  let was := hasPos (s.portAt ip).active pos
  let s := s.modPort ip (fun p => { p with active := p.active &&& ~~~bit, pool := p.pool &&& ~~~bit, dropped := p.dropped ||| bit })
  if was then s.logEvent (laneEntry .hardware (s.ipLane ip pos) ip 1 other 0) else s

/-- A forced swap when the active set is below its need; with an empty pool lanes_short (R166, R170). Answers the position
brought in. -/
def replaceDropped (ip out : Nat) (s : State) : Option Nat × State :=
  if s.portNeed ip ≤ popCount (s.portAt ip).active then (none, s) else
  match forcedSwap ip out s with
  | (some k, s) => (some k, s)
  | (none, s) => (none, match s.pathOfI ip with
    | none => s
    | some n => raise (srcPath n 5) s)

/-- Position `k` of the spare pool is brought in as the partner's forced swap names it. -/
def bringIn (ip k out : Nat) (s : State) : State :=
  let s := s.modPort ip (fun p => { p with active := p.active ||| posBit k, pool := p.pool &&& ~~~posBit k })
  let s := s.logEvent (laneEntry .hardware (s.ipLane ip k) ip 2 out 0)
  match s.pathOfI ip with
  | none => s
  | some n => raise (srcPath n 12) s

/-- The position that a drop would bring in. -/
def State.nextSpare (s : State) (ip pos : Nat) : Nat :=
  let p := s.portAt ip
  if popCount (p.active &&& ~~~posBit pos) < s.portNeed ip then ((positions p.pool).head?).getD 0x1F else 0x1F

/-- Where a receiver lost its partner's position `pos` (R216): nothing while its lane is eligible, else the index after the last flit
that it received whole. -/
def State.lostFrom (s : State) (ip pos : Nat) : Option FlitIndex :=
  let x := s.laneAt (s.ipLane ip pos)
  if x.eligible then none else some { n := x.rxIdx.1, f := x.rxIdx.2 }

/-- LANE_DROP (R165, R166, R170, R217): a position leaves the active set at its next boundary, and DROP is sent. -/
def execLaneDrop (t : Nat) (ip : PortNo) (pos : Fin 18) (lost ber short : Bool) := live (fun s =>
  let s := s.at t
  let ip := ip.val
  let p := s.portAt ip
  match dropCode (lost && !(s.laneAt (s.ipLane ip pos.val)).eligible) ber short with
  | none => s
  | some cause =>
  if !p.up || !hasPos p.active pos.val then s else
  let s := dropPos ip pos.val (s.nextSpare ip pos.val) s
  let r := replaceDropped ip pos.val s
  let msg : SpareMsg := { op := 1, out := pos.val, inn := r.1.getD 0x1F, cause := cause,
                          tx := some (s.nextIdx ip (r.1.getD pos.val)), lost := s.lostFrom ip pos.val, since := s.now, sentAt := s.now }
  r.2.modPort ip (fun p => { p with spare := p.spare ++ [msg] }))

/-- An answer stands for a SPARE message of an op and outgoing position (R216). -/
def SpareMsg.answers (m : SpareMsg) (op out : Nat) : Bool := m.out == out && (m.op == 2) == (op == 1)

/-- The answer to a SPARE message, on every eligible lane. -/
def answerSpare (ip op out inn cause : Nat) (lost : Option FlitIndex) (s : State) : State :=
  let m : SpareMsg := { op := op, out := out, inn := inn, cause := cause, tx := some (s.nextIdx ip (if inn < 18 then inn else out)),
                        lost := lost, since := s.now, sentAt := s.now, repeated := s.now }
  s.modPort ip (fun p => { p with spareAns := p.spareAns.filter (fun x => !(x.out == out && (x.op == 2) == (op == 2))) ++ [m] })

/-- A SPARE message with one op is received: the repeat of one that was acted on is ignored but for its answer, which is sent again; a
new one is acted on (R195, R216). -/
def rxSpare (t ip : Nat) (flit : RxFlit) (op : Nat) (act : Nat → Spare → State → State) : State → Host.Outcome State Fault Refusal :=
  rxFlit t ip flit (fun h pl => ofType 2 4 h pl && field pl 0 1 == op) (fun n _ pl s =>
    let out := (spareOf pl).out
    let key := op * 32 + out
    if (s.portAt ip).spareRx.get none key = some (pl.take 16) then
      if op = 1 ∨ op = 3 then s.modPort ip (fun p => { p with spareAns := p.spareAns.map (fun m =>
        if m.answers op out then { m with due := 0x3FFFF, repeated := s.now } else m) }) else s
    else act n (spareOf pl) (s.modPort ip (fun p => { p with spareRx := p.spareRx.set none key (some (pl.take 16)) })))

/-- The waiting SPARE message with an op and outgoing position. -/
def State.waitingSpare (s : State) (ip op out : Nat) : Option SpareMsg := (s.portAt ip).spare.find? (fun m => m.op == op && m.out == out)

/-- A waiting SPARE message is answered. -/
def endSpare (ip : Nat) (m : SpareMsg) (s : State) : State := s.modPort ip (fun p => { p with spare := p.spare.erase m })

/-- DROP (R217): the partner drops a position; so does the device. -/
def execDrop (t : Nat) (ip : PortNo) (flit : RxFlit) := rxSpare t ip.val flit 1 (fun _ m s =>
  let ip := ip.val
  match s.waitingSpare ip 1 m.out with
  | some w => replayFrom ip m.out m.lost (endSpare ip w s)
  | none =>
    let named := decide (m.inn < 18) && hasPos (s.portAt ip).pool m.inn && decide (m.inn ≠ m.out)
    let s := dropPos ip m.out (if named then m.inn else s.nextSpare ip m.out) s
    let r := if named then (some m.inn, bringIn ip m.inn m.out s) else replaceDropped ip m.out s
    answerSpare ip 2 m.out (r.1.getD 0x1F) 4 (s.lostFrom ip m.out) (replayFrom ip m.out m.lost r.2))

/-- DROP_ACK (R217). -/
def execDropAck (t : Nat) (ip : PortNo) (flit : RxFlit) := rxSpare t ip.val flit 2 (fun _ m s =>
  match s.waitingSpare ip.val 1 m.out with
  | some w => replayFrom ip.val m.out m.lost (endSpare ip.val w s)
  | none => s)

/-- Exchange `out` for `inn` as a SWAP says (R167, R218), with its entry. -/
def applySwap (ip out inn : Nat) (s : State) : State :=
  let s := s.modPort ip (fun p => { p with active := (p.active &&& ~~~posBit out) ||| posBit inn,
                                           pool := (p.pool &&& ~~~posBit inn) ||| posBit out })
  s.logEvent (laneEntry (.ctrlFlit (Fin.ofNat 32 ip)) (s.ipLane ip inn) ip 3 out 0)

/-- An own swap does not stand: its two positions return to the sets that they were in, but for one that was dropped since
(R169), and action_refused is raised with a cause (R168, R218). A forced swap took no position out of the active set. -/
def undoSwap (ip n cause : Nat) (w : SpareMsg) (s : State) : State :=
  let s := (endSpare ip w s).modPort ip (fun p =>
    let i := p.active &&& posBit w.inn
    let o := if w.cause = 5 then p.pool &&& posBit w.out else 0
    { p with active := (p.active &&& ~~~i) ||| o, pool := (p.pool &&& ~~~o) ||| i })
  actionRefused n 7 cause (s.logEvent (laneEntry .hardware (s.ipLane ip w.inn) ip 4 (s.ipLane ip w.out) cause))

/-- A SWAP that the device can apply (R218). -/
def State.swapFits (s : State) (ip out inn : Nat) : Bool := hasPos (s.portAt ip).active out && hasPos (s.portAt ip).pool inn

/-- SWAP (R218): it is applied or refused; of crossing swaps the leader's stands. -/
def execSwap (t : Nat) (ip : PortNo) (flit : RxFlit) := rxSpare t ip.val flit 3 (fun n m s =>
  let ip := ip.val
  let own := (s.portAt ip).spare.find? (fun w => w.op == 3)
  let refuse (s : State) : State := answerSpare ip 5 m.out m.inn m.cause none s
  let take (s : State) : State := if s.swapFits ip m.out m.inn then answerSpare ip 4 m.out m.inn m.cause none (applySwap ip m.out m.inn s) else refuse s
  match own with
  | none => take s
  | some w => if s.ladLead ip then refuse s else take (undoSwap ip n 7 w s))

/-- SWAP_ACK (R218). -/
def execSwapAck (t : Nat) (ip : PortNo) (flit : RxFlit) := rxSpare t ip.val flit 4 (fun _ m s =>
  match s.waitingSpare ip.val 3 m.out with
  | some w => endSpare ip.val w s
  | none => s)

/-- SWAP_REFUSE (R168, R218). -/
def execSwapRefuse (t : Nat) (ip : PortNo) (flit : RxFlit) := rxSpare t ip.val flit 5 (fun n m s =>
  match s.waitingSpare ip.val 3 m.out with
  | some w => undoSwap ip.val n 6 w s
  | none => s)

/-- CTRL_REPEAT (R147, R195, R216, R235): messages not answered are due again, LADDER and TUNNEL after 1 µs, SPARE after
100 ns. -/
def execCtrlRepeat (t : Nat) (ip : PortNo) := live (fun s =>
  let s := s.at t
  let all : BitVec 18 := 0x3FFFF
  s.modPort ip.val (fun p =>
    let l := p.lad
    let p := if !l.sends.isEmpty ∧ l.sentAt + us ≤ s.now then
        { p with lad := { l with sendDue := l.sends.foldl (fun d m => d.set 0 m.1 all) {}, sentAt := s.now } } else p
    let k := p.link
    let p := if k.tunMsg.isSome ∧ k.tunAt + us ≤ s.now then { p with link := { k with tunDue := all, tunAt := s.now } } else p
    { p with spare := p.spare.map (fun m => if m.sentAt + 100 * ns ≤ s.now then { m with due := all, sentAt := s.now } else m) }))

/-- A SPARE message has stayed unanswered for 10 µs, which was not raised yet (R219): its own answer has not come, or, for an answer,
the partner still repeats what it answers (DEDUCED, notes/assumptions/140.md). -/
def SpareMsg.overdue (m : SpareMsg) (now : Nat) : Bool := !m.late && decide (m.since + 10 * us ≤ now)

/-- SPARE_TIMEOUT (R219): a DROP, a SWAP or an answer stays unanswered for 10 µs. -/
def execSpareTimeout (t : Nat) (ip : PortNo) := live (fun s =>
  let s := s.at t
  let p := s.portAt ip.val
  let mark (x : SpareMsg) : SpareMsg := { x with late := true }
  match s.linkPath ip.val with
  | none => s
  | some n =>
    match p.spare.find? (·.overdue s.now), p.spareAns.find? (fun m => m.overdue m.repeated) with
    | some m, _ => linkError n (s.modPort ip.val (fun p => { p with spare := p.spare.map (fun x => if x == m then mark x else x) }))
    | none, some m => linkError n (s.modPort ip.val (fun p => { p with spareAns := p.spareAns.map (fun x => if x == m then mark x else x) }))
    | none, none => s)

end Sys2Proof.Machine
end

