-- ==== Sys2Proof/Machine/Playout.lean ====
section
/-! DEFINITION. The tunnel's two ends on the D side: what the DUT sends reaches the pair, the triggers, the capture tap and the
packing (R215, R222, R224, R258, R259, R302, R365), play-out at the slots (R214, R225, R227), stimulus (R22, R23, R258, R308),
slips (R229), route tags (R173, R174), and the ends of DRAIN and DARK (R178, R179). -/

namespace Sys2Proof.Machine

/-! ### D_TO_I_RECEIVE -/

/-- The record in progress of each D→I capture stream of path `n` holds poison (R365). -/
def poisonCapture (n : Nat) (s : State) : State :=
  each (s.captureDir n 1) (fun k s => s.modStrm k (fun x => { x with cur := x.cur.map (fun r => { r with poison := true }) })) s

/-- Whole D→I capture intervals reach the capture streams (R258). -/
def captureWhole : Nat → Nat → State → State
  | 0, _, s => s
  | f + 1, n, s =>
    let p := s.pathAt n
    let l := intervalBits (s.dpWidth (s.pathD n))
    if l = 0 || shortest p.capBits < l then s else
    let s := s.modPath n (fun p => { p with capBits := p.capBits.map (fun b => b.drop l), capK := (p.capK + 1) % 2 ^ 32 })
    let s := captureLine n 1 p.capK (dataPayload p.capBits l none) (if p.capPoison then poisonCapture n s else s)
    captureWhole f n (if p.capPoison then poisonCapture n s else s)

/-- The D→I direction of path `n` is captured now (R36, R259); the safe state does not end it (R266). -/
def State.captures (s : State) (n : Nat) : Bool :=
  let p := s.pathAt n
  match p.dataMode with
  | .observe | .verdict => (s.portAt (s.pathI n)).link.tunnel == 1 || p.safe
  | .drive | .fanOut => p.phase == .steady
  | _ => false

/-- Line bits of every lane of the D port join the capture interval in progress (R258, R259). -/
def captureIn (n : Nat) (bits : List (List Bool)) (poison : Bool) (s : State) : State :=
  if !s.captures n || s.dIdle n then s else
  let s := s.modPath n (fun q => { q with
    capBits := appendLanes q.capBits bits, capPoison := poison || (q.capPoison && 0 < shortest q.capBits) })
  captureWhole (2 + shortest (s.pathAt n).capBits) n s

/-- The received bits of the D lanes of path `n` as line bits: polarity corrected and precoding undone (R92, R93, R220), with the lanes'
precoder memories after them. -/
def lineBits (n : Nat) (bits : List (List Bool)) (s : State) : List (List Bool) × State :=
  let x := (s.sideLanes n .dSide).zip bits
  (x.map (fun y => (s.recvBits y.1 y.2).1),
   x.foldl (fun s y => s.modLane y.1 (fun l => { l with rxMem := (s.recvBits y.1 y.2).2 })) s)

/-- D_TO_I_RECEIVE (R222, R258, R259, R270, R302): what the D port receives reaches the protocol decoder. -/
def execDToIReceive (t : Nat) (p : PathNo) (rx : DRx) := live (fun s =>
  let s := s.at t
  let n := p.val
  if !s.pathEn n then s else
  let r := lineBits n rx.bits s
  let s := pairReceive n { rx with bits := r.1 } r.2
  let s := rx.units.foldl (fun s u => headerMatch n 1 u s) s
  packIn n r.1 rx.poison (captureIn n r.1 rx.poison s))

/-- SKP_ORDERED_SET (R121, R130, R222): in Pass in both directions and in the Guard family from D to I, a received set is sent on with
units added or removed. -/
def execSkpOrderedSet (t : Nat) (p : PathNo) (dir : Dir) (skp : SkpSet) := live (fun s =>
  let s := s.at t
  let n := p.val
  let m := (s.pathAt n).mode
  if !(s.pciePath n && (m == .pass || dir == .toI) && decide (0 ≤ (skp.units : Int) + skp.adjust)) then s else
  let r := lineBits n skp.bits s
  let out := Config.skpForwarded (s.curRate (64 + s.dpFirst (s.pathD n))) skp.adjust (s.pathAt n).retimer r.1
  if m = .pass then s.modPath n (fun x => { x with skp := x.skp + skp.adjust, skpOut := out })
  else packIn n out false (captureIn n out false (r.2.modPath n (fun x => { x with skp := x.skp + skp.adjust, skpOut := out }))))

/-- No other flit is due at a lane of the path's I port (R196, R222). -/
def State.noFlitDue (s : State) (n : Nat) : Bool :=
  let ip := s.pathI n
  let l := (s.portAt ip).link
  (positions (s.portAt ip).active).any (fun k => (s.dueMsg ip k).isNone) && l.naks.isEmpty && l.echoAns.isNone && l.wait.isEmpty
    && !l.unres.any (·.due) && !l.ackDue && !l.echoDue

/-- PACK_TIMEOUT (R222): 8 ns after the first unsent bit, with no other flit due, the unsent part leaves as a short flit. -/
def execPackTimeout (t : Nat) (p : PathNo) := live (fun s =>
  let s := s.at t
  let n := p.val
  let w := s.dpWidth (s.pathD n)
  match (s.pathAt n).packAt with
  | none => s
  | some a =>
    let m := min (shortest (s.pathAt n).packBits) (min (intervalBits w - (s.pathAt n).packOff) (2016 / w))
    if !s.packs n || s.now < a + 8 * ns || !s.noFlitDue n || m = 0 then s else emitData n m s)

/-! ### Slips -/

/-- Path `n` slips (R19, R229): its open windows take the cause "slip", and slip is raised. -/
def slipPath (n : Nat) (s : State) : State := raise (srcPath n 1) (takeAll n 5 s)

/-- SLIP (R229): 16 ns before the slot of the lowest interval whose DATA flit, or an earlier flit, is not accepted. -/
def execSlip (t : Nat) (p : PathNo) := live (fun s =>
  let s := s.at t
  let n := p.val
  let l := (s.portAt (s.pathI n)).link
  match s.slotTime n l.rxCount with
  | none => s
  | some a => if !s.pathEn n || l.tunnel ≠ 1 || (s.pathAt n).safe || s.now + 16 * ns < a then s else slipPath n s)

/-! ### Play-out -/

/-- The entries of the LINE_EVENT cells that name interval `k`. -/
def LinkSt.eventsAt (l : LinkSt) (k : Nat) : List (List Byte) :=
  ((l.cells.filter (·.isLine)).flatMap (fun c => lineEntries c.payload)).filter (fun e => field e 4 4 == k)

/-- A LINE_EVENT cell names no interval after `k`. -/
def RxCell.spent (k : Nat) (c : RxCell) : Bool := c.isLine && (lineEntries c.payload).all (fun e => kFrom (field e 4 4) k)

/-- The line bits of lane `k` in the bytes of an interval of width `w` (R221). -/
def laneBlock (w k : Nat) (bs : List Byte) : List Bool := ((unpackBits bs).drop (k * intervalBits w)).take (intervalBits w)

/-- An interval leaves on the D lanes of path `n`: as levels, precoded where precoding is in force (R72, R73, R93, R227). -/
def sendInterval (n k : Nat) (bs : List Byte) (s : State) : State :=
  let w := s.dpWidth (s.pathD n)
  let out := (List.range w).map (fun i =>
    let l := s.sideLane n .dSide i
    (l, s.sendLevels l (levelsOfBits (isPam4 (s.curRate l)) (laneBlock w i bs))))
  let s := out.foldl (fun s x => s.modLane x.1 (fun y => { y with txMem := x.2.2 })) s
  s.modPath n (fun p => { p with played := some (k, bs), dLevels := out.map (·.2.1) })

/-- Interval `k` in cell `c` is played out at its slot `a` (R139, R223, R227); each line event that names it takes effect at its offset
after the slot. -/
def playCell (ip n k a : Nat) (c : RxCell) (s : State) : State :=
  let evs := (s.portAt ip).link.eventsAt k
  let s := s.modPath n (fun p => { p with playedEv := evs.map (fun e => (e, s.eventTime n a e)) })
  let s := evs.foldl (fun s e => lineEffect n e s) s
  let shown := s.dpFamily (s.pathD n) != 1 || (s.pathAt n).segReady
  let s := if shown then sendInterval n k c.payload s else s
  let s := s.modPath n (fun p => { p with playNext := (k + 1) % 2 ^ 32 })
  let s := s.modLink ip (fun l => { l with
    cells := l.cells.filter (fun x => x.seq != c.seq && !(x.spent k && seqBefore x.seq c.seq)),
    delivered := if seqBefore l.delivered c.seq then c.seq else l.delivered })
  pump ((s.portAt ip).link.cells.length + 1) ip n s

/-- Both copies of the flit of interval `k` are uncorrectable (R214, R240): it is reported, and it slips. -/
def poisonRx (ip n k : Nat) (c : RxCell) (s : State) : State :=
  let q := c.seq.toNat
  let s := s.modLink ip (fun l => { l with cells := l.cells.filter (fun x => x.seq != c.seq) })
  let s := s.sendFault n { source := srcPath n 2, cls := s.nextCls (srcPath n 2), first := q, last := q, firstK := k, lastK := k }
  let s := s.logEvent (reportEntry n 0 false q q k)
  slipPath n (raise (srcPath n 2) (takeAll n 6 s))

/-- The slot of the next interval in the Guard family (R225, R227): it is played if its flit and every earlier one were accepted 16 ns
before, else the path slips (R229). Delivery to other consumers meets no read of a cell (DESIGN CHOICE,
notes/assumptions/141.md). -/
def playGuard (n : Nat) (read : ReelRead) (s : State) : State :=
  let p := s.pathAt n
  let ip := s.pathI n
  let l := (s.portAt ip).link
  match s.slotTime n p.playNext with
  | none => s
  | some a =>
    if l.tunnel ≠ 1 || p.safe || s.now < a then s
    else match l.cells.find? (fun c => c.typ = 1 && seqUpTo c.seq l.ack && c.interval == p.playNext && decide (c.readyAt + 16 * ns ≤ a)) with
    | none => slipPath n s
    | some c =>
      let s := reelRead (s.cellPlace n .toD c.cell) read s
      if read.badA && read.badB then poisonRx ip n p.playNext c s else playCell ip n p.playNext a c s

/-- The stimulus of path `n` fails: spool_path with its cause, and every slot of the group enters its safe state (R293). -/
def stimFails (n cause : Nat) (s : State) : State :=
  let src := srcPath n 8
  stimSafe n src (raiseSpool n cause s)

/-- The next stimulus interval of path `n` (R22, R23, R305, R307): its bytes, none where the replay stream underruns or reads
poison. -/
def nextStim (n : Nat) (s : State) : Option (List Byte) × State :=
  let p := s.pathAt n
  if p.stimGen then
    let g := s.genInterval n (s.dpWidth (s.pathD n)) p.stimSrc
    (some g.1, s.modPath n (fun p => { p with stimSrc := g.2 }))
  else
    let (buf, ok, bad, s) := readBytes 64 (s.repStream n) 256 p.stimBuf false s
    if bad then (none, stimFails n 2 s)
    else if !ok then (none, stimFails n 1 s)
    else (some (buf.take 256), s.modPath n (fun p => { p with stimBuf := buf.drop 256 }))

/-- A stimulus interval enters the delay line of a running pair with source 2 (R308). -/
def delayLine (n : Nat) (bs : List Byte) (s : State) : State :=
  if !((s.pairAt n).run && s.vrdSource n == 2) then s else
  let keep := 262144 / max 1 (intervalBits (s.dpWidth (s.pathD n)))
  s.modPair n (fun p =>
    let b := p.expBuf ++ bs
    let gone := b.length / 256 - keep
    { p with expBuf := b.drop (256 * gone), expBase := p.expBase + gone })

/-- The next interval of a Drive-family path that stands in STEADY (R258): its stimulus, if it runs, enters the D lanes of the
sites that follow it (R171). -/
def playDrive (n : Nat) (s : State) : State :=
  let k := (s.pathAt n).playNext
  let count (s : State) : State := each (s.group n) (fun m s => s.modPath m (fun p => { p with playNext := (k + 1) % 2 ^ 32 })) s
  if !(s.pathAt n).stim then count s else
  match nextStim n s with
  | (none, s) => s
  | (some bs, s) =>
    let s := s.modPath n (fun p => { p with stimPos := p.stimPos + 1 })
    count (each (s.sites n) (fun m s =>
      delayLine m bs (captureLine m 0 k bs (sendInterval m k bs s))) s)

/-- PLAYOUT_SLOT (R227): the slot of the path's next interval. -/
def execPlayoutSlot (t : Nat) (p : PathNo) (read : ReelRead) := live (fun s =>
  let s := s.at t
  let n := p.val
  let q := s.pathAt n
  if !s.pathEn n || s.pathLead n ≠ n then s
  else if q.mode.guardFam || q.phase == .drain then playGuard n read s
  else if q.mode.driveFam && q.phase == .steady then playDrive n s
  else s)

/-! ### Route tags -/

/-- The 16 bits of a route tag (R172). -/
def tagWord (x : RouteTag) : BitVec 16 :=
  BitVec.ofNat 16 (x.path.val * 2048 + x.port.val * 64 + x.pos.val * 2 + (match x.dir with | .toD => 0 | .toI => 1))

/-- The fields path, port, pos and dir of a route tag (R172). -/
def tagFields (v : BitVec 16) : List Nat := [v.toNat / 2048, v.toNat / 64 % 32, v.toNat / 2 % 32, v.toNat % 2]

/-- What an output expects (R173): the path that its route_tag source is of, and the fields that it compares, none for one that it does
not. A verdict pair takes what the D side received, so its direction is D→I (DEDUCED, notes/assumptions/142.md). -/
def State.tagExpected (s : State) : TagPoint → Option (Nat × List (Option Nat))
  | .dLane d => (s.pathOfD (64 + d.val)).map (fun n => (n, [some n, some (s.pathD n), some (d.val - s.dpFirst (s.pathD n)), some 0]))
  | .engine ip => (s.pathOfI ip.val).map (fun n => (n, [some n, some ip.val, none, some 1]))
  | .iLane ip pos => (s.pathOfI ip.val).map (fun n => (n, [none, some ip.val, some pos.val, some 1]))
  | .verdict pair pos => some (pair.val, [some pair.val, none, some pos.val, some 1])
  | .spool st => some (s.stPath st.val, [some (s.stPath st.val), none, none, some (s.stDir st.val)])

/-- One comparator finds a match (R173). -/
def tagMatches (want : List (Option Nat)) (v : BitVec 16) : Bool :=
  (want.zip (tagFields v)).all (fun x => x.1.all (· == x.2))

/-- ROUTE_TAG_MISMATCH (R173, R174): a unit with a tag reaches an output, whose two comparators see `seen`. Unless both
find a match it is withheld, and route_tag of the expected path, and of the received one if its slot is enabled, are raised. -/
def execRouteTagMismatch (point : TagPoint) (seen : TagSeen) := live (fun s =>
  match s.tagExpected point with
  | none => s
  | some (n, want) =>
    if tagMatches want seen.received && tagMatches want seen.copy then s else
    let s := raise (srcPath n 0) s
    let r := seen.received.toNat / 2048
    if s.pathEn r ∧ r ≠ n then raise (srcPath r 0) s else s)

/-! ### Phases -/

/-- DRAIN of path `n` can end (R179): B + 64 ns after the fire instant, with every D→I flit, those that wait to be framed among them,
acknowledged or 1 ms after it. -/
def State.drained (s : State) (n : Nat) : Bool :=
  let l := (s.portAt (s.pathI n)).link
  match (s.pathAt n).trans with
  | none => false
  | some tr => decide (tr.fireAt + s.ballast n + 64 * ns ≤ s.now)
      && ((l.unres.isEmpty && l.wait.all (fun f => f.typ != 1)) || decide (tr.fireAt + ms ≤ s.now))

/-- DRAIN_END (R179). -/
def execDrainEnd (t : Nat) (p : PathNo) := live (fun s =>
  let s := s.at t
  let q := s.pathAt p.val
  if q.phase == .drain && !q.safe && s.drained p.val then drainEnd p.val s else s)

/-- PHASE_2_START (R15, R178): at a local beat edge in LOCKED later than that of phase 1, after phase 1 and its dark time. -/
def execPhase2Start (t : Nat) (p : PathNo) := live (fun s =>
  let s := s.at t
  let q := s.pathAt p.val
  let waited := (match q.trans.bind (·.darkAt) with
    | none => true
    | some d => decide (d + us * s.darkMin p.val ≤ s.now))
    && (match q.trans with
    | none => false
    | some tr => decide (tr.fireAt < s.beat.edge))
  if q.phase == .dark && q.trans.isSome && !q.safe && s.beat.st == .locked && s.now == s.beat.edge && waited && !s.pwr.fatal then phase2 p.val s else s)

end Sys2Proof.Machine
end

