-- ==== Sys2Proof/Machine/Hbm.lean ====
section
/-! DEFINITION. HBM rows (R252, R253, R288-R292), the service frame (R255-R257) and the turns of the store host (R287). -/

namespace Sys2Proof.Machine

/-! ### HBM rows -/

/-- The records of a list that meet a test are poison. -/
def poisonRecs (p : Rec → Bool) (l : List Rec) : List Rec := l.map (fun r => if p r then { r with poison := true } else r)

/-- The records of striped row `row` are poison (R288, R291, R365), and the accepted ones are reported by sequence range (R31). -/
def poisonRow (row : Nat) (s : State) : State :=
  each (s.streamsOf (fun _ => true)) (fun k s =>
    let hit (r : Rec) : Bool := decide (s.hbmRow k r = row)
    let x := s.strmAt k
    let lost := (x.window.filter (fun r => hit r && !r.poison && r.kind != 0x0B)).map (·.seq)
    if !((x.window ++ x.written ++ x.uncommitted).any hit) then s else
    let s := s.modStrm k (fun x => { x with
      window := poisonRecs hit x.window, written := poisonRecs hit x.written, uncommitted := poisonRecs hit x.uncommitted })
    match lost.head?, lost.getLast? with
    | some a, some b => s.logEvent (reportStream k a b)
    | _, _ => s) s

/-- A spare takes the place of retired logical channel `c` of stack `h` and a rebuild begins (R289); with none left the channel
stays unmapped (R290). Which of two spares is taken is a free choice. -/
def retireChannel (h c : Nat) (s : State) : State :=
  let x := s.hbmAt h
  let s := raise (srcHbm h 2) s
  let s := s.modHbm h (fun x => { x with uncorr := x.uncorr.set 0 c 0 })
  let take (bit phys : Nat) (s : State) : State := s.modHbm h (fun x => { x with
    used := x.used ||| BitVec.ofNat 2 (2 ^ bit), map := x.map.set c c phys,
    rebuild := x.rebuild.or (some (c, 0)), rebuildNext := if x.rebuild.isSome then x.rebuildNext ++ [c] else x.rebuildNext })
  match x.used.getLsbD 1, x.used.getLsbD 0 with
  | false, false => let v := s.free; if v.1 % 2 = 0 then take 1 30 v.2 else take 0 31 v.2
  | false, true => take 1 30 s
  | true, false => take 0 31 s
  | true, true => raise (srcHbm h 4) (s.modHbm h (fun x => { x with unmapped := x.unmapped ||| BitVec.ofNat 30 (2 ^ c) }))

/-- The stacks whose unit of row `row` cannot be read (R289, R290, R292): its logical channel is unmapped, waits for its rebuild, or
the rebuild has not reached the row. -/
def State.unbuilt (s : State) (row : Nat) : List Nat :=
  let c := row % 30
  let a := row / 30
  [0, 1, 2, 3].filter (fun h =>
    let x := s.hbmAt h
    Nat.testBit x.unmapped.toNat c || x.rebuildNext.contains c || x.rebuild.any (fun r => r.1 == c && decide (r.2 ≤ a)))

/-- A read of row `row` (R288): corrected words are counted with their addresses; one unit that cannot be read is reconstructed, whose
extra unit reads the rebuild slots serve (R289); two make the row poison. -/
def readHbm (row : Nat) (r : RowRead) (s : State) : State :=
  let s := r.corrected.foldl (fun s w => s.modHbm w.1.val (fun x =>
    let a := row * 128 + w.2.val
    { x with corrected := x.corrected + 1, corrAt := x.corrAt.set 0 a (x.corrAt.get 0 a + 1) })) s
  let gone := s.unbuilt row
  let bad := (r.bad.map (·.val)).eraseDups.filter (fun h => !gone.contains h)
  let c := row % 30
  let s := each bad (fun h s => s.modHbm h (fun x => { x with uncorr := x.uncorr.set 0 c (x.uncorr.get 0 c + 1) })) s
  match bad.length + gone.length with
  | 0 => s
  | 1 => (each bad (fun h s => raise (srcHbm h 1) s) s).modSpl (fun x => { x with assist := x.assist + 1 })
  | _ => poisonRow row (each (bad ++ gone) (fun h s => raise (srcHbm h 5) s) s)

/-- The unit addresses of a pseudo-channel that the rebuild covers (R251, R289). -/
def channelRows : Nat := 294912

/-- One row of the rebuild of stack `h` (R289, R294). -/
def rebuildStep (h : Nat) (r : RowRead) (s : State) : State :=
  match (s.hbmAt h).rebuild with
  | none => s
  | some (c, a) =>
    let s := readHbm (30 * a + c) r s
    if a + 1 < channelRows then s.modHbm h (fun x => { x with rebuild := some (c, a + 1) })
    else
      raise (srcHbm h 3) (s.modHbm h (fun x => { x with
        rebuild := x.rebuildNext.head?.map (fun c => (c, 0)), rebuildNext := x.rebuildNext.drop 1 }))

/-- A record of striped row `row` is poison. -/
def State.rowPoison (s : State) (row : Nat) : Bool :=
  (s.streamsOf (fun _ => true)).any (fun k =>
    let x := s.strmAt k
    (x.window ++ x.written ++ x.uncommitted).any (fun r => r.poison && decide (s.hbmRow k r = row)))

/-- One row re-encrypted (R469): its poison is kept and raises env_rekey. -/
def rekeyRow (row : Nat) (r : RowRead) (s : State) : State :=
  let s := readHbm row r s
  let s := if s.rowPoison row then raiseD (srcGlobal 51) 1 s else s
  s.modEnv (fun e => { e with rkFrame := row :: e.rkFrame })

/-- A slot of the rekey (R469, R476): a row whose operation is repeated, else the row at the boundary, which moves past it. -/
def rekeyStep (r : RowRead) (s : State) : State :=
  match s.env.rkAgain with
  | row :: rest => rekeyCheck (rekeyRow row r (s.modEnv (fun e => { e with rkAgain := rest })))
  | [] =>
    let s := (rekeyRow s.env.boundary r s).modEnv (fun e => { e with rkDone := e.rkDone + 1 })
    rekeyCheck (s.modEnv (fun e => { e with rkBoundary := e.boundary }))

/-- A path writes striped row `row`: if the rekey has re-encrypted that row in this frame, it repeats it in its next slot (R476). -/
def rekeyAgain (row : Nat) (s : State) : State :=
  if s.env.rkFrame.contains row && (s.env.rkState == 1 || s.env.rkState == 2) then
    s.modEnv (fun e => { e with rkFrame := e.rkFrame.filter (fun x => x != row), rkAgain := e.rkAgain ++ [row] })
  else s

/-- Striped rows (R252). -/
def stripedRows : Nat := 8846880

/-- The scrub of the next row is due (R291): a pass takes HBC_CFG.scrub_s seconds, of which stack H0's counts (DESIGN CHOICE,
notes/assumptions/149.md). -/
def State.scrubDue (s : State) : Bool :=
  decide (s.spl.scrubAt + s.spl.scrub * (s.bits 0x600004 31 16 * 1000 * ms) / stripedRows ≤ s.now)

/-- The scrub of the next row (R291): a parity that does not match with no error reported makes the row's records poison. -/
def scrubStep (r : RowRead) (s : State) : State :=
  let row := s.spl.scrub % stripedRows
  let s := (readHbm row r s).modSpl (fun x => { x with
    scrub := (row + 1) % stripedRows, scrubAt := if row + 1 < stripedRows then x.scrubAt else s.now })
  if r.parityOk || !r.bad.isEmpty then s else poisonRow row (raise (srcHbm (row / 30 % 4) 6) s)

/-- The reader of stream `k` can take a row now (R272). -/
def State.readable (s : State) (k : Nat) : Bool :=
  let x := s.strmAt k
  x.reading && decide (x.ahead.length < s.readAhead (s.stPath k)) && (s.nextRead k (x.ahead.getLast?.getD x.readSeq)).isSome

/-- One row read for the reader of stream `k` (R257, R272, R288). -/
def readStep (k : Nat) (r : RowRead) (s : State) : State :=
  let x := s.strmAt k
  match s.nextRead k (x.ahead.getLast?.getD x.readSeq) with
  | none => s
  | some q => fetchRow 3 k (readHbm (s.hbmRow k q) r s)

/-! ### The service frame (R255-R257) -/

/-- What a slot of the service frame is for. -/
inductive SlotUse where
  | drain | preload | rebuild | journal | logbook | path (n : Nat) | idle
deriving DecidableEq, Repr

/-- The path that holds the `i`th of the slots which paths share, in slot order. -/
def slotPath : Nat → List (Nat × Nat) → Option Nat
  | _, [] => none
  | i, x :: t => if i < x.2 then some x.1 else slotPath (i - x.2) t

/-- The use of slot `i` (R256, R257): the 30 system slots in the order of the table of R256, then the paths' slots in path order (DESIGN
CHOICE, notes/assumptions/143.md). -/
def State.slotUse (s : State) (i : Nat) : SlotUse :=
  if i < 9 then .drain else if i < 18 then .preload else if i < 26 then .rebuild else if i < 29 then .journal
  else if i < 30 then .logbook
  else match slotPath (i - 30) (paths.map (fun n => (n, s.pathSlots n))) with
    | some n => .path n
    | none => .idle

/-- Stream `k` has a whole row to write. -/
def State.rowReady (s : State) (k : Nat) : Bool := decide (3 ≤ (s.strmAt k).staged.length)

/-- A slot of path `n` (R257): the first of its row operations in the order D→I capture, I→D capture, fail bitmap, replay, expected,
mask; none leaves the slot idle. -/
def pathSlot (n : Nat) (r : RowRead) (s : State) : State :=
  match ((s.roleOf n 0).filter (fun k => s.stDir k == 1) ++ (s.roleOf n 0).filter (fun k => s.stDir k == 0) ++ s.roleOf n 1).find? s.rowReady,
      (s.roleOf n 4 ++ s.roleOf n 2 ++ s.roleOf n 3).find? s.readable with
  | some k, _ => writeRow k (rekeyAgain ((s.strmAt k).baseRow + (s.strmAt k).rowNext % max 1 (s.stWin k)) s)
  | none, some k => readStep k r s
  | none, none => s

/-- A rebuild slot (R289, R291, R469): a degraded read's extra reads, else a row of a rebuild, of the rekey, or of the scrub. Of several
stacks that rebuild the lowest is served (DESIGN CHOICE, notes/assumptions/143.md). -/
def rebuildSlot (r : RowRead) (s : State) : State :=
  if 0 < s.spl.assist then s.modSpl (fun x => { x with assist := x.assist - 1 }) else
  match [0, 1, 2, 3].find? (fun h => (s.hbmAt h).rebuild.isSome) with
  | some h => rebuildStep h r s
  | none => if s.env.rkState = 1 then rekeyStep r s else if s.scrubDue then scrubStep r s else s

/-! ### The store host's turns (R287) -/

/-- STO_CFG.share_n of path `n`, in 256ths (R551). -/
def State.stoShare (s : State) (n : Nat) : Nat := s.bits (0x700010 + 4 * (n / 4)) (8 * (n % 4) + 7) (8 * (n % 4))

/-- The owner of turn `i` of 256: each path has share_n turns, the logbook and journal streams (32) have 8, and the rest are idle. The
turns of a path stand together, in path order (DESIGN CHOICE, notes/assumptions/144.md). -/
def State.turnOwner (s : State) (i : Nat) : Option Nat := slotPath i (paths.map (fun n => (n, s.stoShare n)) ++ [(32, 8)])

/-- Whose turns serve stream `k`. -/
def State.turnOf (s : State) (k : Nat) : Nat := if 5 ≤ s.stRole k then 32 else s.stPath k

/-- One row is read for the drain of stream `k`, whose store row write starts once its records are read (R256, R283). -/
def drainRow (k : Nat) (r : RowRead) (s : State) : State :=
  let x := s.strmAt k
  match x.toDrain.drop x.drainGot with
  | [] => startDrain k s
  | q :: t =>
    let got := x.drainGot + 1 + (t.takeWhile (fun y => y.row == q.row)).length
    let s := (readHbm (s.hbmRow k q) r s).modStrm k (fun x => { x with drainGot := got })
    if got < (s.drainPlan k).1 then s else startDrain k s

/-- The record that the upload of stream `k` needs read next (R275). -/
def State.uploadNeeds (s : State) (k : Nat) : Option Rec :=
  let x := s.strmAt k
  x.upload.bind (fun u => x.window.find? (fun r => r.kind != 0x0B && decide (x.upRead < r.seq) && decide (r.seq ≤ u.2)))

/-- A drain slot that the drain leaves idle reads a row for an upload (R256, R275). -/
def uploadRow (r : RowRead) (s : State) : State :=
  match (s.streamsOf (fun k => (s.uploadNeeds k).isSome)).head? with
  | none => s
  | some k =>
    match s.uploadNeeds k with
    | none => s
    | some q =>
      let s := readHbm (s.hbmRow k q) r s
      s.modStrm k (fun x => { x with upRead := ((x.window.filter (fun y => y.row == q.row)).map (·.seq)).foldl max q.seq })

/-- A drain slot (R256, R287): the turn's owner drains, or the slot is left to an upload. -/
def drainSlot (r : RowRead) (s : State) : State :=
  let o := s.turnOwner s.sto.turn
  let s := { s with sto := { s.sto with turn := (s.sto.turn + 1) % 256 } }
  match (s.streamsOf (fun k => s.drainDue k && some (s.turnOf k) == o)).head? with
  | some k => drainRow k r s
  | none => uploadRow r s

/-- A preload slot (R256, R273, R287): a row of loaded records is written, and in its owner's turn the preload asks the drives for up to
three more records. -/
def preloadSlot (s : State) : State :=
  let s := match (s.streamsOf (fun k => s.rowReady k && decide (2 ≤ s.stRole k) && decide (s.stRole k ≤ 4))).head? with
    | some k => writeRow k s
    | none => s
  let o := s.turnOwner s.sto.turnRead
  let s := { s with sto := { s.sto with turnRead := (s.sto.turnRead + 1) % 256 } }
  match s.spl.preload with
  | some (k, _, left) =>
    if some (s.turnOf k) == o then
      s.modSpl (fun x => { x with preAsked := min left (x.preAsked + 3), preAt := if x.preAsked = 0 then s.now else x.preAt })
    else s
  | none => s

/-- The service frame that an instant falls in (R255): 1.048576 µs each, from power-up (DESIGN CHOICE, notes/assumptions/143.md). -/
def frameOf (t : Nat) : Nat := t * 1000 / 4194304

/-- SERVICE_SLOT (R255-R257): a slot performs one row operation in each frame; which it is, its use and what waits decide. -/
def execServiceSlot (t : Nat) (slot : SlotRead) := live (fun s =>
  let s := s.at t
  let read := slot.read
  let slot := slot.slot
  let f := frameOf s.now
  let used := if s.spl.frame = f then s.spl.frameUsed else 0
  if s.pwr.fatalDone || used.getLsbD slot then s else
  let s := if s.spl.frame = f then s else s.modEnv (fun e => { e with rkFrame := [] })
  let s := s.modSpl (fun x => { x with frame := f, frameUsed := used ||| BitVec.ofNat 256 (2 ^ slot.val) })
  match s.slotUse slot with
  | .drain => drainSlot read s
  | .preload => preloadSlot s
  | .rebuild => rebuildSlot read s
  | .logbook => if s.rowReady 1022 then writeRow 1022 s else s
  | .path n => pathSlot n read s
  | .journal | .idle => s)

end Sys2Proof.Machine
end

