-- ==== Sys2Proof/Machine/Store.lean ====
section
/-! DEFINITION. The Spool's and the store's commands: sealing and rows (R262), HBM errors
(R289-R294), journal and snapshots (R277, R278), the drain (R283-R286), store ports and drives (R281, R285, R286, R295),
preloads and releases (R271, R273, R284). -/

namespace Sys2Proof.Machine

/-! ### Sealing and rows -/

/-- seal_us of stream `k` has passed for a record (R262). -/
def State.sealDue (s : State) (k : Nat) (r : Option Rec) : Bool := r.any (fun r => decide (r.begun + us * s.stSeal k ≤ s.now))

/-- SEAL_TIMEOUT (R262, R323, R418): seal_us after its first payload byte a record in progress of a stream is sealed. -/
def execSealTimeout (t : Nat) (st : StreamNo) := live (fun s =>
  let s := s.at t
  let k := st.val
  let x := s.strmAt k
  if k = 1022 then (if s.log.recorded < s.log.used ∧ s.log.since + us * s.stSeal k ≤ s.now then sealLog s else s)
  else if s.stRole k = 1 then
    each ctxs (fun c s => if s.sealDue k (s.ctxAt (s.stPath k) c).mapRec then sealMap (s.stPath k) c s else s) s
  else if s.sealDue k x.cur then sealFull k s
  else if s.sealDue k x.evRec then countLimits k 1 (sealEvents k false s)
  else s)

/-- ROW_TIMEOUT (R262): 1 µs after the first record of a stream's row was sealed the row is completed with PAD records. -/
def execRowTimeout (t : Nat) (st : StreamNo) := live (fun s =>
  let s := s.at t
  let q := (s.strmAt st.val).staged
  if (q.drop (q.length / 3 * 3)).head?.any (fun r => decide (r.sealedAt + us ≤ s.now)) then s.modStrm st.val (·.padRow) else s)

/-! ### HBM conditions -/

/-- HBC_CFG of stack `h` (R550). -/
def aHbc (h : Nat) : Nat := 0x600000 + 0x10000 * h

/-- HBM_ERROR_WINDOW (R289, R294): the end of a 1 s window. -/
def execHbmErrorWindow (h : Fin 4) (parityErrors : Nat) := live (fun s =>
  let h := h.val
  let x := s.hbmAt h
  let s := s.modHbm h (fun x => { x with corrected := 0, uncorr := {} })
  let s := if s.bits (aHbc h) 31 16 < x.corrected then raise (srcHbm h 0) s else s
  let s := if s.bits (aHbc h + 4) 15 0 < parityErrors then raise (srcHbm h 8) s else s
  each ((x.uncorr.entries.filter (fun e => decide (s.bits (aHbc h) 7 0 < e.2))).map (·.1)) (fun c s => retireChannel h c s) s)

/-- SELF_REFRESH_FAIL (R292): every channel of the stack is retired with no spare. -/
def execSelfRefreshFail (h : Fin 4) := done (fun s =>
  if s.pwr.por then s else
  raise (srcHbm h.val 10) (s.modHbm h.val (fun x => { x with lostAll := true, unmapped := 0x3FFFFFFF, rebuild := none, rebuildNext := [] })))

/-- HBM_TEMP_HIGH (R294). -/
def execHbmTempHigh (h : Fin 4) (celsius : Nat) := live (fun s =>
  let s := s.modHbm h.val (fun x => { x with celsius := celsius })
  if 95 < celsius then raise (srcHbm h.val 9) s else s)

/-- HBM_TEMP_HIGH_END (R294). -/
def execHbmTempHighEnd (h : Fin 4) (celsius : Nat) := live (fun s =>
  let s := s.modHbm h.val (fun x => { x with celsius := celsius })
  if celsius ≤ 95 then condEnd (srcHbm h.val 9) s else s)

/-- HBM_CONTROLLER_ECC (R294). -/
def execHbmControllerEcc (h : Fin 4) := live (raise (srcHbm h.val 11))

/-! ### Journal and snapshots -/

/-- JOURNAL_COMMIT (R277): every 2 µs. -/
def execJournalCommit (t : Nat) := live (fun s =>
  let s := s.at t
  if s.spl.committing || s.pwr.fatalDone || decide (s.now < s.spl.commitDue) then s else beginCommit s)

/-- JOURNAL_COMMIT_COMPLETE (R263, R277, R283). -/
def execJournalCommitComplete (t : Nat) (okA okB : Bool) := live (fun s => endCommit okA okB (s.at t))

/-- SNAPSHOT (R278): every journal_ms. -/
def execSnapshot (t : Nat) := live (fun s =>
  let s := s.at t
  if s.now < s.spl.snapFrom + ms * s.bits 0x700000 25 16 then s else startSnapshot s)

/-- A snapshot is durable (R278, R466): its marks are in force, each new one with its RESERVE entry (R474), and drains that waited for
them can go on. The snapshot before it is released (DESIGN CHOICE, notes/assumptions/148.md). -/
def snapshotDone (s : State) : State :=
  if !s.spl.snapping then s else
  let s := each (s.streamsOf (fun _ => true)) (fun k s => s.modStrm k (fun x => { x with snapAcc := x.snapNew })) s
  let s := s.spl.snapMarks.foldl (fun s m =>
    let e := s.keyAt m.1
    if e.mark < m.2 then
      (s.modKey m.1 (fun e => { e with mark := m.2 })).logEvent
        { kind := 0x0E, origin := .hardware, target := m.1 + 2 ^ 8 * e.slot.getD 0 + 2 ^ 16 * 0x0B, a := e.keyId.toNat, b := m.2 }
    else s) s
  let n := s.spl.snapRecs.length
  let s := s.modStrm 1023 (fun x =>
    let w := max 1 s.storeN
    { x with next := x.next + n, accepted := x.next + n - 1, durable := x.next + n - 1, storeRel := x.storeIdx,
             storeIdx := x.storeIdx + (n + w - 1) / w * w })
  s.modSpl (fun x => { x with snapping := false, snapMarks := [], snapRecs := [], snapOn := 0, snapAt := s.now })

/-- A drive's writes of the snapshot have completed, or will not: with the last of them it is durable (R278). -/
def snapshotPart (d : Nat) (s : State) : State :=
  let s := s.modSpl (fun x => { x with snapOn := x.snapOn &&& ~~~BitVec.ofNat 16 (2 ^ d) })
  if s.spl.snapOn = 0 then snapshotDone s else s

/-- JOURNAL_STORE (R295): no snapshot within 10 × journal_ms. -/
def execJournalStore (t : Nat) := live (fun s =>
  let s := s.at t
  if s.spl.snapAt + 10 * ms * s.bits 0x700000 25 16 ≤ s.now then raise (srcStore 95) s else s)

/-! ### The drain -/

/-- STORE_FLUSH_TIMEOUT (R283): flush_us after its first record became ready a row that is not full is due with PAD, in its path's
turns. -/
def execStoreFlushTimeout (t : Nat) (st : StreamNo) := live (fun s =>
  let s := s.at t
  let late := (s.strmAt st.val).toDrain.head?.any (fun r => decide (r.accAt + us * s.bits 0x700004 15 0 ≤ s.now))
  s.modStrm st.val (fun x => { x with flushDue := x.flushDue || late }))

/-- The oldest accepted record of stream `k` that is not durable is older than lag_ms (R295). -/
def State.lags (s : State) (k : Nat) : Bool :=
  s.stEn k && s.stDrain k && (match (s.strmAt k).toDrain.head? with
    | none => false
    | some r => decide (r.accAt + ms * s.bits 0x70000C 15 0 < s.now))

/-- DURABLE_LAG (R295). -/
def execDurableLag (st : StreamNo) := live (fun s => if s.lags st.val then raise (srcStore 94) s else s)

/-- The condition durable_lag ends with the last stream that lags. -/
def lagCheck (s : State) : State := if (s.streamsOf s.lags).isEmpty then condEnd (srcStore 94) s else s

/-! ### Drives -/

/-- Members of the group that hold no complete copy of their blocks. -/
def State.missing (s : State) : Nat :=
  ((List.range 16).filter (fun d => (s.driveAt d).st == 2 || (s.driveAt d).st == 3)).length

/-- The condition of store source `i` follows a test. -/
def follow (i : Nat) (on : Bool) (s : State) : State :=
  let src := srcStore i
  if on then (if (s.srcAt src).cond then s else raise src s) else if (s.srcAt src).cond then condEnd src s else s

/-- store_degraded, store_critical and store_lost follow the missing drives; with three missing the store's records cannot be
read and are reported (R286, R295). -/
def storeCheck (s : State) : State :=
  let m := s.missing
  let s := follow 91 (m == 2) (follow 90 (m == 1) s)
  if m < 3 then follow 92 false { s with sto := { s.sto with lost := false } }
  else if s.sto.lost then s
  else
    let s := raise (srcStore 92) { s with sto := { s.sto with lost := true } }
    each (s.streamsOf (fun _ => true)) (fun k s =>
      match (s.strmAt k).stored.head?, (s.strmAt k).stored.getLast? with
      | some a, some b => s.logEvent (reportStream k a.1 b.1)
      | _, _ => s) s

/-- The writes of a drive that is gone (R285, R297): the rows are complete on the live drives; with three missing no row becomes
durable. -/
def dropWrites (d : Nat) (s : State) : State :=
  if 3 ≤ s.missing then
    each (s.streamsOf (fun _ => true)) (fun k s => s.modStrm k (fun x => { x with draining := 0, drainPad := false, drainOn := 0 })) s
  else
    let s := each (s.streamsOf (fun _ => true)) (writeDone d) s
    if s.spl.snapOn.getLsbD d then snapshotPart d s else s

/-- A drive of the group is marked missing (R285). -/
def driveMissing (d : Nat) (s : State) : State :=
  if (s.driveAt d).st = 1 ∨ (s.driveAt d).st = 3 then
    storeCheck (dropWrites d (raise (srcStore (74 + d)) (s.modDrive d (fun x => { x with st := 2 }))))
  else s

/-- The group forms from the usable drives once there are four (R282). -/
def formGroup (s : State) : State :=
  let live := (List.range 16).filter (fun d => (s.driveAt d).st == 1)
  let n := live.length
  if 0 < s.sto.group || n < 4 then s else
  let least := (live.map (fun d => (s.driveAt d).capacity)).foldl min ((s.driveAt (live.headD 0)).capacity)
  { s with sto := { s.sto with group := n, rows := min least (64 * 10 ^ 12 / 4096 / (n - 2)) } }

/-- A drive is found (R281, R286): a member's replacement is rebuilt; before the group exists a usable drive joins it. -/
def driveFound (i : DriveInfo) (s : State) : State :=
  let d := i.drive.val
  let put (st : Nat) (s : State) : State := s.modDrive d (fun x => { x with st := st, port := i.port.val, capacity := i.capacity, boundary := 0 })
  let x := s.driveAt d
  if x.st = 1 ∨ x.st = 3 then s
  else if !i.usable then (if x.st = 2 then s else raise (srcStore (74 + d)) (put 4 s))
  else if x.st = 2 then (if s.sto.rows ≤ i.capacity then storeCheck (condEnd (srcStore (74 + d)) (put 3 s)) else s)
  else if s.sto.group = 0 then put 1 (follow (74 + d) false s)
  else s

/-- A command of drive `d` has not completed within cmd_timeout_ms (R285): a row write, a snapshot's, or a read of the preload. -/
def State.cmdLate (s : State) (d : Nat) : Bool :=
  let w := ms * s.bits 0x700008 15 0
  (s.streamsOf (fun k => (s.strmAt k).drainOn.getLsbD d && decide ((s.strmAt k).drainAt + w ≤ s.now))) != []
    || (s.spl.snapOn.getLsbD d && decide (s.spl.snapFrom + w ≤ s.now))
    || (decide (0 < s.spl.preAsked) && decide (s.spl.preAt + w ≤ s.now))

/-- DRIVE_CMD_TIMEOUT (R285): the command is aborted and the drive is marked missing. -/
def execDriveCmdTimeout (d : Timed (Fin 16)) := live (fun s =>
  let s := s.at d.t
  if s.cmdLate d.x.val then driveMissing d.x.val s else s)

/-- A drive that was not used is gone, and its drive_fault ends with it (R281). -/
def unusedGone (d : Nat) (s : State) : State :=
  if (s.driveAt d).st = 4 then follow (74 + d) false (s.modDrive d (fun x => { x with st := 0 })) else s

/-- DRIVE_REMOVED (R281, R285). -/
def execDriveRemoved (d : Fin 16) := live (fun s => driveMissing d.val (unusedGone d.val s))

/-- DRIVE_INSERTED (R286). -/
def execDriveInserted (info : DriveInfo) := live (fun s => formGroup (driveFound info s))

/-- SMART_POLL (R285, R477): a critical warning marks the drive missing. -/
def execSmartPoll (d : Fin 16) (critical : Bool) := live (fun s => if critical && s.gon.fwReady then driveMissing d.val s else s)

/-- STORE_PORT_EVENT (R285, R295). -/
def execStorePortEvent (port : Fin 2) (ev : StorePortEvent) := live (fun s =>
  let p := port.val
  match ev with
  | .linkDown =>
    let s := raise (srcStore (68 + 3 * p)) { s with sto := { s.sto with up := s.sto.up &&& ~~~BitVec.ofNat 2 (2 ^ p) } }
    each ((List.range 16).filter (fun d => (s.driveAt d).port == p)) driveMissing s
  | .linkDegraded => raise (srcStore (69 + 3 * p)) s
  | .aerUncorrectable => raise (srcStore (70 + 3 * p)) s)

/-- STORE_LINK_UP (R281): the port's link is up and its drives are in use; link_down and link_degraded end. -/
def execStoreLinkUp (port : Fin 2) (drives : List DriveInfo) := live (fun s =>
  let p := port.val
  let s := { s with sto := { s.sto with up := s.sto.up ||| BitVec.ofNat 2 (2 ^ p) } }
  let s := condEnd (srcStore (69 + 3 * p)) (condEnd (srcStore (68 + 3 * p)) s)
  formGroup (drives.foldl (fun s d => driveFound d s) s))

/-! ### Preload -/

/-- The preload's record is done (R273). -/
def preloadNext (k q cnt : Nat) (s : State) : State :=
  if cnt ≤ 1 then
    (s.modStrm k (fun x => { x with preDone := true })).modSpl (fun x => { x with preload := none, preAsked := 0, cmdBusy := false, cmdResult := 0 })
  else s.modSpl (fun x => { x with preload := some (k, q + 1, cnt - 1) })

/-- A block opens (R464): under KS0's record with a tag of 0, or under a loaded record with its key_id. -/
def State.opens (s : State) (k : Nat) (block : List Byte) (tagOk : Bool) : Bool :=
  let id := field block 48 4
  tagOk && (if id = 0 then decide ((s.strmAt k).keyIdx = 0)
            else s.env.key.entries.any (fun e => e.2.loaded && !e.2.bad && e.2.kind == 1 && e.2.keyId.toNat == id))

/-- A record read back for the preload (R273, R464). -/
def preloadRecord (k : Nat) (block : List Byte) (tagOk : Bool) (s : State) : State :=
  match s.spl.preload with
  | none => s
  | some (j, q, cnt) =>
    if j ≠ k ∨ s.spl.preAsked = 0 then s else
    let s := s.modSpl (fun x => { x with preAsked := x.preAsked - 1, preAt := s.now })
    let rec1 := block.take 44 ++ List.replicate 8 0 ++ (block.drop 52).take 4020
    preloadNext k q cnt (if s.opens k block tagOk && recordOk k q rec1 then loadRec k (recOf rec1) s else loadError k s)

/-- DRIVE_COMMAND_COMPLETE (R273, R278, R283, R286): a rebuild goes up row by row. -/
def execDriveCommandComplete (d : Fin 16) (what : DriveDone) := live (fun s =>
  if s.sto.stopped then s else
  match what with
  | .rowWrite k => lagCheck (writeDone d.val k.val s)
  | .readRecord k block tagOk => preloadRecord k.val block tagOk s
  | .rebuildRow row =>
    if (s.driveAt d.val).st = 3 ∧ (s.driveAt d.val).boundary = row then s.modDrive d.val (fun x => { x with boundary := row + 1 }) else s
  | .rebuildEnd =>
    if (s.driveAt d.val).st = 3 ∧ s.sto.rows ≤ (s.driveAt d.val).boundary then storeCheck (s.modDrive d.val (fun x => { x with st := 1 })) else s
  | .snapshot => if s.spl.snapOn.getLsbD d then snapshotPart d s else s)

/-! ### SPL_CMD (R549) -/

/-- The result of an SPL_CMD that starts nothing. -/
def splResult (r : Nat) (s : State) : State := s.modSpl (fun x => { x with cmdResult := r })

/-- PRELOAD (R273). -/
def splPreload (k q cnt : Nat) (s : State) : State :=
  if s.spl.cmdBusy then splResult 2 s
  else if !(s.stEn k && decide (2 ≤ s.stRole k) && decide (s.stRole k ≤ 4)) then splResult 1 s
  else if cnt = 0 then splResult 0 (s.modStrm k (fun x => { x with preDone := true }))
  else (s.modStrm k (fun x => { x with preDone := false })).modSpl (fun x => { x with preload := some (k, q, cnt), preAsked := 0, cmdBusy := true })

/-- RELEASE (R271). -/
def splRelease (k q : Nat) (s : State) : State :=
  if s.spl.cmdBusy then splResult 2 s
  else if s.stEn k && ((s.stRole k ≤ 1 && !s.stDrain k) || (2 ≤ s.stRole k && s.stRole k ≤ 4)) then splResult 0 (release k q s)
  else splResult 1 s

/-- STORE_RELEASE (R284): store records up to a sequence number are released; a drain that found its extent full goes on. -/
def storeRelease (k q : Nat) (s : State) : State :=
  if s.spl.cmdBusy then splResult 2 s
  else if !(s.stEn k && s.stDrain k) then splResult 1 s
  else
    let x := s.strmAt k
    let idx := if x.durable ≤ q then x.storeIdx
      else match (x.stored.filter (fun y => decide (q < y.1))).head? with
        | some y => y.2
        | none => x.storeIdx - (x.durable - q)
    let s := s.modStrm k (fun x => { x with storeRel := max x.storeRel idx, stored := x.stored.filter (fun y => decide (q < y.1)) })
    let s := if x.full && !s.extentFull k 1 then
        let s := s.modStrm k (fun x => { x with full := false })
        if (s.streamsOf (fun j => (s.strmAt j).full)).isEmpty then condEnd (srcStore 93) s else s
      else s
    splResult 0 s

/-- The word of SPL_CMD that starts an operation (R549). -/
def splWord (op k : Nat) : Nat := op + 2 ^ 16 * k

/-- A command write with its REG_WRITE entry (R414). -/
def cmdWrite (o : Origin) (addr value : Nat) (f : State → State) : State → Host.Outcome State Fault Refusal :=
  writeCmd o addr value (withEntry { kind := 0x01, origin := o, target := addr, a := value } f)

/-- PRELOAD (R273). -/
def execPreload (o : Origin) (st : StreamNo) (seq : Nat) (count : Nat) := cmdWrite o 0x500000 (splWord 1 st.val) (splPreload st.val seq count)

/-- SPL_RELEASE (R271). -/
def execSplRelease (o : Origin) (st : StreamNo) (seq : Nat) := cmdWrite o 0x500000 (splWord 2 st.val) (splRelease st.val seq)

/-- STORE_RELEASE (R284). -/
def execStoreRelease (o : Origin) (st : StreamNo) (seq : Nat) := cmdWrite o 0x500000 (splWord 3 st.val) (storeRelease st.val seq)

/-! ### Verdicts -/

/-- VERDICT_FORMED (R317, R325, R326): 200 ns after its close the verdict of a bank is formed, and a waiting close takes the
bank that is free. -/
def execVerdictFormed (t : Nat) (pair : PathNo) (ctx : Fin 4) := live (fun s =>
  let s := s.at t
  let n := pair.val
  let c := ctx.val
  let x := s.ctxAt n c
  let due (b closed : Nat) : Bool := x.forming.getLsbD b && decide (closed + 200 * ns ≤ s.now)
  let first := due 0 x.closedAt.1 && (!(due 1 x.closedAt.2) || decide (x.closedAt.1 ≤ x.closedAt.2))
  if first then closeWaiting n c (formVerdict n c 0 s)
  else if due 1 x.closedAt.2 then closeWaiting n c (formVerdict n c 1 s)
  else s)

/-- VERDICT_ECC_ERROR (R300): it acts as a pair mismatch. -/
def execVerdictEccError (pair : PathNo) := live (fun s => takeForming pair.val 7 (pairMismatch pair.val s))

end Sys2Proof.Machine
end

