-- ==== Sys2Proof/Machine/Ripcord.lean ====
section
/-! DEFINITION. Ripcord's own commands: grace expiry (R366), leaving the safe state (R364), the Fatal flush (R371), clock
loss (R373), the detections of the die-to-die links and of the device's own checks (R12, R354, R376, R377), and the line
monitors (R354, R357). -/

namespace Sys2Proof.Machine

/-! ### Escalation and the safe state -/

/-- A grace timer expires (R366): the class in force goes up by one, once, with a record of the escalation. -/
def escalate (src : Nat) (s : State) : State :=
  let x := s.srcAt src
  let cls := min 3 (x.cls + 1)
  let t := s.record src cls 2 false (if 3 ≤ cls then 2 else 0) (if 3 ≤ cls then pathMask s.fatalEnters else 0) x.detail
  let t := t.modSrc src (fun x => { x with cls := cls, grace := none })
  let t := if 3 ≤ cls then goFatal src t else t
  if src = srcGlobal 78 then deliver src t else overflowCheck s (deliver src t)

/-- GRACE_EXPIRY (R366). Acknowledgement has stopped the timer of a source that is HELD or IDLE. -/
def execGraceExpiry (t : Nat) (source : Fin 2176) := live (fun s =>
  let s := s.at t
  match (s.srcAt source.val).grace with
  | some g => if g ≤ s.now then escalate source.val s else s
  | none => s)

/-- SAFE_STATE_EXIT (R364): a path with no holding cause left leaves its safe state, but never in Fatal. A WAKE that it held
ends (R183). -/
def execSafeStateExit (t : Nat) (p : PathNo) := live (fun s =>
  let s := s.at t
  let q := s.pathAt p.val
  if q.safe && q.holds.isEmpty && !s.pwr.fatal then wakeDone p.val (leaveSafe p.val s) else s)

/-! ### Fatal -/

/-- Logbook entries not yet in the stream are sealed into LOG records. -/
def flushSeal : Nat → State → State
  | 0, s => s
  | f + 1, s => flushSeal f (sealLog s)

/-- Sealed records of stream 1022 are written to HBM. -/
def flushWrite : Nat → State → State
  | 0, s => s
  | f + 1, s => if (s.strmAt 1022).staged.isEmpty then s else flushWrite f (writeRow 1022 s)

/-- The Logbook stream drains to the store through the reserved slots, its last row with PAD. -/
def flushDrain : Nat → State → State
  | 0, s => s
  | f + 1, s =>
    let s' := startDrain 1022 (s.modStrm 1022 (fun x => { x with flushDue := true }))
    if (s'.strmAt 1022).draining = 0 then s' else flushDrain f (endDrain 1022 s')

/-- The Fatal flush (R371): the Logbook's entries reach HBM and the store, then a journal commit and a snapshot. -/
def fatalFlush (s : State) : State :=
  let s := flushSeal 263 s
  let s := flushWrite 264 (s.modStrm 1022 (·.padRow))
  let s := endCommit true true (beginCommit (endCommit true true s))
  snapshotDone (startSnapshot (flushDrain 264 s))

/-- The end of the Fatal flush (R371): the store host stops, HBM enters self-refresh, every key slot is cleared, and the data
lanes enter Moored but for those of I ports whose FAULT flits are not acknowledged. -/
def fatalEnd (s : State) : State :=
  let s := { s with sto := { s.sto with stopped := true } }
  let s := each [0, 1, 2, 3] (fun h s => s.modHbm h (fun x => { x with selfRefresh := true })) s
  let s := each (List.range 16) zeroiseSlot (s.modEnv (fun e => { e with cleared := true, rkState := 0 }))
  let s := s.modPwr (fun p => { p with fatalDone := true, flushAt := s.now })
  let up := (List.range 32).filter (fun ip => s.ipEn ip && (s.portAt ip).up)
  let kept := up.flatMap (fun ip => (s.ipPositions ip).map (s.cfgLane ip))
  let s := each ((List.range 128).filter (fun l => (s.laneAt l).st != .unassigned && !kept.contains l)) (laneTo .moored) s
  each up fatalPort s

/-- FATAL_FLUSH_END (R371). -/
def execFatalFlushEnd (t : Nat) := live (fun s =>
  let s := s.at t
  if s.pwr.fatal && !s.pwr.fatalDone then fatalEnd (fatalFlush s) else s)

/-- FATAL_PORT_TIMEOUT (R371): 1 ms after the flush every I port's lanes enter Moored. -/
def execFatalPortTimeout (t : Nat) := live (fun s =>
  let s := s.at t
  if !s.pwr.fatalDone || s.pwr.fatalPorts || decide (s.now < s.pwr.flushAt + ms) then s else
  let ls := (List.range 128).filter (fun l => (s.laneAt l).st != .unassigned)
  each ls (laneTo .moored) (s.modPwr (fun p => { p with fatalPorts := true })))

/-! ### Clock loss -/

/-- The clock-loss path triggers outside power-on reset, once (R373). -/
def loseClock (t i : Nat) : State → Host.Outcome State Fault Refusal := done (fun s =>
  if s.pwr.por || s.pwr.clkLost then s else raise (srcGlobal i) (s.at t))

/-- REFCLK_LOSS (R354, R373). -/
def execRefclkLoss (t : Nat) := loseClock t 32

/-- CORE_CLOCK (R354, R373). -/
def execCoreClock (t : Nat) := loseClock t 33

/-! ### Die-to-die links -/

/-- D2D_CORRECTED (R12, R354). -/
def execD2dCorrected (die : Fin 4) := live (fun s =>
  raise (srcGlobal (19 + die.val)) (s.modDie die.val (fun d => { d with corrected := satAdd 255 d.corrected 1 })))

/-- D2D_UNCORRECTED (R12, R354): the data in the link is poison, and `paths` are those whose data crossed it. -/
def execD2dUncorrected (die : Fin 4) (paths : BitVec 32) := live (fun s =>
  let s := each (maskPaths paths) (fun n s => poisonPair n 6 (s.modPath n (fun p => { p with
    packPoison := p.packPoison || !p.packBits.isEmpty, capPoison := p.capPoison || !p.capBits.isEmpty }))) s
  detect (srcGlobal (23 + die.val)) none true (maskPaths paths) 0 s)

/-- D2D_LINK_LOSS (R12, R354): every path with a lane on the die is a target. -/
def execD2dLinkLoss (die : Fin 4) := live (fun s =>
  let s := s.modDie die.val (fun d => { d with link := 3 })
  detect (srcGlobal (27 + die.val)) none true (s.pathsWith (fun l => decide (l / 32 = die.val))) 0 s)

/-! ### The device's own checks -/

/-- DATAPATH_CONFIG_ECC (R354): every path that uses the word is a target. -/
def execDatapathConfigEcc (paths : BitVec 32) := live (detect (srcGlobal 66) none true (maskPaths paths) 0)

/-- DATAPATH_PARITY (R354): the path that the expected route tag names is the target. -/
def execDatapathParity (expected : RouteTag) := live (detect (srcGlobal 67) none true [expected.path.val] 0)

/-- SPOOL_ECC (R354). -/
def execSpoolEcc := live (raise (srcGlobal 68))

/-- LOG_ECC (R354). -/
def execLogEcc := live (raise (srcGlobal 69))

/-- RIPCORD_ECC (R354). -/
def execRipcordEcc := live (raise (srcGlobal 80))

/-- RIPCORD_MISMATCH (R376). -/
def execRipcordMismatch := live (raise (srcGlobal 79))

/-- CLASS_COPY_COMPARE (R376): copies that differ are a mismatch. -/
def execClassCopyCompare (equal : Bool) := live (fun s => if equal then s else raise (srcGlobal 79) s)

/-- RIPCORD_SELFTEST (R377). -/
def execRipcordSelftest (ok : Bool) := live (fun s => if ok then s else raise (srcGlobal 81) s)

/-! ### Line monitors -/

/-- PIN_READBACK (R354, R368): a pin that the device drives low reads high. -/
def execPinReadback (line : MonLine) := live (fun s =>
  match line with
  | .faultN => if s.flt.faultN then raiseGroup (srcGlobal 75) (some 0) s else s
  | .alertN => if s.flt.alertN then raiseGroup (srcGlobal 75) (some 1) s else s
  | .beat | .train => s)

/-- BEAT_LINE (R354). -/
def execBeatLine := live (raise (srcGlobal 76))

/-- TRAIN_LINE (R354). -/
def execTrainLine := live (raise (srcGlobal 77))

/-- LINE_BACK_IN_RANGE (R357). -/
def execLineBackInRange (line : MonLine) := live (fun s =>
  match line with
  | .beat => condEnd (srcGlobal 76) s
  | .train => condEnd (srcGlobal 77) s
  | .faultN => groupEnd (srcGlobal 75) 0 s
  | .alertN => groupEnd (srcGlobal 75) 1 s)

end Sys2Proof.Machine
end

