-- ==== Sys2Proof/Machine/Power.lean ====
section
/-! DEFINITION. Power-on, straps, fuses, clocks' return, device reset by its pin, supplies, temperatures, AVS and the domain
multiplexers (R373, R374, R385, R422, R429-R447, R508, R564, R566). -/

namespace Sys2Proof.Machine

/-! ### Straps -/

/-- The majority of a phase's readings, each read as its outcome 0, 1 or 2; a tie is read as the lower outcome (R564). -/
def majority (l : List Nat) : Nat :=
  let c (v : Nat) : Nat := (l.filter (· == v)).length
  if c 1 ≤ c 0 ∧ c 2 ≤ c 0 then 0 else if c 2 ≤ c 1 then 1 else 2

/-- The outcome of a pull-up reading and of a pull-down reading in mV (R564). -/
def upOutcome (mv : Nat) : Nat := if mv < 550 then 0 else if mv ≤ 1450 then 1 else 2
def downOutcome (mv : Nat) : Nat := if mv < 900 then 0 else 1

/-- The value of a strap from its two phases (R564). -/
def strapValue (p : StrapPin) : Nat :=
  match majority (p.up.map upOutcome) with
  | 0 => 0
  | 1 => 1
  | _ => 2 + majority (p.down.map downOutcome)

/-- GLB_STRAP from the straps CLK_STAB1, CLK_STAB0, REFSEL, TRAIN_ID2, TRAIN_ID1, TRAIN_ID0, MGMT_ADDR1, MGMT_ADDR0,
MGMT_MODE and NVM_MODE, in this order (R331, R385, R532). -/
def strapWord (pins : List StrapPin) : Word :=
  let v (i : Nat) : Nat := (pins.map strapValue).getD i 0
  BitVec.ofNat 32 (4 * v 0 + v 1 + 2 ^ 4 * (16 * v 3 + 4 * v 4 + v 5) + 2 ^ 10 * (4 * v 6 + v 7) + 2 ^ 14 * v 8 + 2 ^ 16 * v 9
    + 2 ^ 18 * v 2 + (if 2 ≤ v 2 then 2 ^ 20 else 0))

/-- NVM_MODE and MGMT_MODE of the straps (R385, R532). -/
def State.nvmMode (s : State) : Nat := s.pwr.strap.toNat / 2 ^ 16 % 4
def State.mgmtMode (s : State) : Nat := s.pwr.strap.toNat / 2 ^ 14 % 4

/-! ### The start sequence -/

/-- Step `k` of R436 has completed. -/
def State.stepDone (s : State) (k : Nat) : Bool := Nat.testBit s.pwr.steps.toNat k

/-- Steps of R436 complete. -/
def stepsDone (l : List Nat) (s : State) : State :=
  s.modPwr (fun p => { p with steps := l.foldl (fun m k => m ||| BitVec.ofNat 11 (2 ^ k)) p.steps })

/-- SUPPLY_GOOD (R436, R564): power-on leaves step 1, and the straps are sampled. -/
def execSupplyGood (t : Nat) (pins : List StrapPin) := done (fun s =>
  if s.pwr.por && !s.stepDone 1 then
    stepsDone [1, 2] ((s.at t).modPwr (fun p => { p with strap := strapWord pins, rstLow := false, low := 0, refSince := max s.now t }))
  else s)

/-- POWER_ON_RESET (R433, R437): all but the store and the NVM chips is lost. Cores start a new run of state words. -/
def execPowerOnReset (supply : Fin 9) := done (fun s =>
  let low := s.pwr.rstLow
  let runs := [0, 1, 2, 3].map (fun c => (s.coreAt c).epoch + 1)
  let r : State := { State.reset with pending := s.pending, now := s.now, freeCtr := s.freeCtr }
  let r := each [0, 1, 2, 3] (fun c s => s.modCore c (fun x => { x with epoch := runs.getD c 0 })) r
  r.modPwr (fun p => { p with rstLow := low, low := BitVec.ofNat 9 (2 ^ supply.val) }))

/-! ### Device reset -/

/-- The source that the clock-loss path recorded is raised as LATCHED after its device reset (R374). -/
def raiseCause (s : State) : State :=
  let rc := s.flt.resetCause.toNat
  if rc / 2 ^ 95 = 1 then
    let src := rc / 2 ^ 64 % 4096
    let cls := max (srcMin src) (s.classReg src)
    let s := s.record src cls 0 true 4 0 0
    deliver src (s.modSrc src (fun x => x.raised cls s.now true none 0))
  else s

/-- A device reset ends (R374, R417, R436, R437): its first entry is RESET; the fuses, straps and the self-test stand. -/
def deviceEnd (s : State) : State :=
  let byClock := s.pwr.clkReset
  let s := deviceClear s
  let s := s.modPwr (fun p => { p with dev := false, devByPin := false, clkReset := false, rstLow := false, refused := 0, steps := 0 })
  let s := stepsDone (if byClock then [1, 2, 3, 5] else [1, 2, 3, 4, 5, 6]) s
  let s := s.logEvent (s.resetEntry .hardware 1 0)
  if byClock then raiseCause s else s

/-- DBG_RST_N_THRESHOLD (R433, R438, R508): a device reset that lasts while the pin is low; in power-on reset the sequence is
held at step 1; in Fatal the request is ignored and logged (R372). -/
def execDbgRstNThreshold (t : Nat) := done (fun s =>
  let s := (s.at t).modPwr (fun p => { p with rstLow := true })
  if s.pwr.por then s
  else if s.pwr.dev then s.modPwr (fun p => { p with devByPin := true })
  else
    let s := s.logEvent (s.resetEntry .hardware 1 0)
    if s.pwr.fatal || s.pwr.clkLost then s else deviceEntry true false s)

/-- DEVICE_RESET_END (R433, R436): the pin has risen, or 10 µs have passed after a command. -/
def execDeviceResetEnd (t : Nat) := done (fun s =>
  let s := s.at t
  let byPin := s.pwr.devByPin || s.pwr.rstLow
  let s := s.modPwr (fun p => { p with rstLow := false })
  if !s.pwr.dev || s.pwr.fatal || s.pwr.clkLost then s
  else if byPin || decide (s.pwr.devSince + 10 * us ≤ s.now) then deviceEnd s
  else s)

/-- The clock returns after a loss (R374): a device reset, ended at once unless DBG_RST_N is low; Fatal where the source was
still LATCHED at the loss, or the Fatal latch was set. -/
def clockReturn (s : State) : State :=
  let src := s.flt.resetCause.toNat / 2 ^ 64 % 4096
  let s := { s with pwr := { s.pwr with clkLost := false }, dbg := { s.dbg with lastFrame := s.now - s.dbg.lastFrame } }
  if s.pwr.fatal then s
  else if (s.srcAt src).cls = 3 then goFatal src s
  else if s.pwr.dev then s.modPwr (fun p => { p with clkReset := true })
  else
    let s := (deviceEntry s.pwr.rstLow true s).modPwr (fun p => { p with clkReset := true })
    if s.pwr.rstLow then s else deviceEnd s

/-- REFCLK edges that the device counts: 2^(14+k) with k of CLK_STAB1 and CLK_STAB0 (R385, R422). -/
def State.refEdges (s : State) : Nat := 2 ^ (14 + s.pwr.strap.toNat % 16)

/-- The shortest time in which they pass: a period of 10 ns or 6.4 ns as REFSEL gives (R385, R423), less 100 ppm (R421). -/
def State.refWait (s : State) : Nat :=
  s.refEdges * (if s.pwr.strap.toNat / 2 ^ 18 % 2 = 0 then 100 * ns else 64 * ns) * 9999 / 100000

/-- REFCLK_COUNT_COMPLETE (R374, R422, R436): power-on reset ends, with its RESET entry; or the clock is back. -/
def execRefclkCountComplete (t : Nat) := done (fun s =>
  let s := s.at t
  if s.now < s.pwr.refSince + s.refWait then s
  else if s.pwr.por then
    if s.stepDone 2 then
      let s := stepsDone [3] (s.modPwr (fun p => { p with por := false }))
      s.logEvent (s.resetEntry .hardware 0 0)
    else s
  else if s.pwr.clkLost then clockReturn s
  else s)

/-! ### Fuses -/

/-- How a fuse word reads (R440): its value, whether it is blank, whether it is marginal. -/
structure FuseClass where
  value : Word := 0
  blank : Bool := false
  marginal : Bool := false

/-- The class of a fuse word from its six readings (R440). A marginal word of the identity kind keeps what copy A reads at
nominal margin (R392, R441); every other marginal or blank word has its default, 0. -/
def fuseClass (f : FuseReads) : FuseClass :=
  let a := f.a.getD 1 0
  let b := f.b.getD 1 0
  let same (l : List (BitVec 40)) (x : BitVec 40) : Bool := l.all (· == x)
  if (f.a ++ f.b).all (· == 0) then { blank := true }
  else match same f.a a && same f.b b, Config.fuseDecode a, Config.fuseDecode b with
    | true, some x, some y => if x == y then { value := x } else { marginal := true, value := nominal f.word.val a }
    | true, some x, none => { value := x }
    | true, none, some y => { value := y }
    | _, _, _ => { marginal := true, value := nominal f.word.val a }
where
  /-- The data bits at nominal margin, of the words of the identity kind. -/
  nominal (w : Nat) (a : BitVec 40) : Word := if 152 ≤ w then a.setWidth 32 else 0

/-- The fuse latches take one word (R439, R441): a marginal repair word makes both its lanes unusable. -/
def latchFuse (s : State) (f : FuseReads) : State :=
  let c := fuseClass f
  let w := f.word.val
  let bit (b : Bool) : BitVec 204 := if b then BitVec.ofNat 204 (2 ^ w) else 0
  let s := s.modPwr (fun p => { p with fuse := p.fuse.set 0 w c.value, fuseBlank := p.fuseBlank ||| bit c.blank,
                                       fuseMarg := p.fuseMarg ||| bit c.marginal })
  if c.marginal && decide (80 ≤ w) && decide (w < 152) then
    each [2 * (w - 80), 2 * (w - 80) + 1] (fun l s => s.modLane l (fun x => { x with fuseBad := true })) s
  else s

/-- A trim word of a group is marginal (R441). -/
def State.trimBad (s : State) (g : Nat) : Bool :=
  (List.range 80).any (fun w => Nat.testBit s.pwr.fuseMarg.toNat w && Config.trimGroup w == g)

/-- PLL_LOCK (R377, R436, R439, R444): every domain switches to its PLL; at power-on 750 mV is commanded once and the fuses are
read; Ripcord tests itself. -/
def execPllLock (t : Nat) (fuses : List FuseReads) (rootId : BitVec 64) (selfTestOk : Bool) := live (fun s =>
  let s := s.at t
  if !s.stepDone 3 || s.stepDone 4 then s else
  let s := each (List.range 206) (fun d s => s.modDom d (fun x => { x with input := 1, lock := true })) s
  let s := each (List.range 36) (fun q s => s.modQuad q (fun x => { x with pll := true, input := 1 })) s
  let s := each [0, 1, 2, 3] (fun j s => s.modDie j (fun x => { x with link := 2 })) s
  let s := if s.stepDone 5 then s
    else (fuses.foldl latchFuse s).modPwr (fun p => { p with avsCmd := 750, rootId := rootId })
  let s := stepsDone [4, 5, 6] s
  if selfTestOk then s else raise (srcGlobal 81) s)

/-- HBM_TRAINING_COMPLETE (R290, R294, R436): interface training, or the exit from self-refresh. -/
def execHbmTrainingComplete (t : Nat) (failed : List (Fin 4)) (failedPcs : List (Fin 4 × Fin 30)) := live (fun s =>
  let s := s.at t
  if !s.stepDone 4 || s.stepDone 7 || s.pwr.fatal then s else
  let s := each [0, 1, 2, 3] (fun h s => s.modHbm h (fun x => { x with link := 2, selfRefresh := false })) s
  let s := each (failed.map (·.val)) (fun h s => raise (srcHbm h 7) (s.modHbm h (fun x => { x with link := 3 }))) s
  stepsDone [7] (failedPcs.foldl (fun s x => retireChannel x.1.val x.2.val s) s))

/-! ### Temperatures and supplies -/

/-- A condition follows a test: it begins above its threshold and ends 5 °C below it (R447). -/
def hotCheck (src lim : Nat) (hi : Int) (s : State) : State :=
  if (lim : Int) < hi then (if (s.srcAt src).cond then s else raise src s)
  else if hi ≤ (lim : Int) - 20 && (s.srcAt src).cond then condEnd src s else s

/-- The die of a temperature sensor: 0 the core die, 1 + j lane die j (R532). -/
def sensorDie (i : Nat) : Nat := if i < 8 then 0 else 1 + (i - 8) / 2

/-- The sensors disagree: two of one die differ by more than 5 °C, or one reads out of range (R354). -/
def tempsBad (l : List (Option Int)) : Bool :=
  let xs := l.zip (List.range l.length)
  l.any (·.isNone) || xs.any (fun a => xs.any (fun b => sensorDie a.2 == sensorDie b.2 &&
    (match a.1, b.1 with | some x, some y => decide (20 < x - y) | _, _ => false)))

/-- TEMP_SAMPLE (R354, R447): `readings` in quarter degrees, none for a sensor that reads out of range. -/
def execTempSample (t : Nat) (readings : List (Option Int)) := live (fun s =>
  let s := s.at t
  let l := readings.take 16
  let s := (l.zip (List.range l.length)).foldl (fun s x => match x.1 with
    | some v => s.modPwr (fun p => { p with temp := p.temp.set 0 x.2 v })
    | none => s) s
  let d := if s.trimBad 0 then 20 else 0
  let s := match l.filterMap id with
    | [] => s
    | v :: vs =>
      let hi := vs.foldl max v
      hotCheck (srcGlobal 37) (480 - d) hi (hotCheck (srcGlobal 36) (440 - d) hi s)
  let bad := tempsBad l
  let src := srcGlobal 38
  if bad && !(s.srcAt src).cond then raise src s else if !bad && (s.srcAt src).cond then condEnd src s else s)

/-- Operating minimum and maximum of a supply in 0.1 mV (R566), in the order of its table. -/
def supplyMin (i : Nat) : Nat := [6300, 7275, 8730, 11640, 10670, 3800, 17100, 17100, 7600].getD i 0
def supplyMax (i : Nat) : Nat := [8750, 7725, 9270, 12360, 11330, 4200, 18900, 18900, 8400].getD i 0

/-- The voltage that AVS commands, in mV; the regulator starts at 750 mV by itself (R445). -/
def State.avsNow (s : State) : Nat := if s.pwr.avsCmd = 0 then 750 else s.pwr.avsCmd

/-- A supply lies below its minimum; a marginal trim word moves the threshold 3% inside (R441, R566). -/
def State.supplyIsLow (s : State) (i v : Nat) : Bool :=
  let k := if s.trimBad 1 then 103 else 100
  decide (100 * v < k * supplyMin i) || (i == 0 && decide (10000 * v < k * 970 * s.avsNow))

/-- A supply lies above its maximum (R441, R566). -/
def State.supplyIsHigh (s : State) (i v : Nat) : Bool :=
  let k := if s.trimBad 1 then 97 else 100
  decide (k * supplyMax i < 100 * v) || (i == 0 && decide (k * 1030 * s.avsNow < 10000 * v))

/-- SUPPLY_LOW (R354, R566). -/
def execSupplyLow (supply : Fin 9) (tenthsMv : Nat) := done (fun s =>
  if s.pwr.por || !s.supplyIsLow supply.val tenthsMv then s else
  let was := s.pwr.low
  let s := s.modPwr (fun p => { p with low := p.low ||| BitVec.ofNat 9 (2 ^ supply.val) })
  if was = 0 then raise (srcGlobal 41) s else s)

/-- SUPPLY_LOW_END (R357): the condition ends with the last low supply. -/
def execSupplyLowEnd (supply : Fin 9) := done (fun s =>
  if s.pwr.por then s else
  let was := s.pwr.low
  let s := s.modPwr (fun p => { p with low := p.low &&& ~~~BitVec.ofNat 9 (2 ^ supply.val) })
  if was ≠ 0 ∧ s.pwr.low = 0 then condEnd (srcGlobal 41) s else s)

/-- SUPPLY_HIGH (R354, R371): Fatal, and every data transmitter goes to high impedance. -/
def execSupplyHigh (supply : Fin 9) (tenthsMv : Nat) := done (fun s =>
  if s.pwr.por || !s.supplyIsHigh supply.val tenthsMv then s else
  let s := raise (srcGlobal 42) s
  each (List.range 128) (fun l s => s.modLane l (fun x => { x with txHiZ := true })) s)

/-! ### AVS -/

/-- A voltage of CRU_AVS_CFG limited to its range and steps (R444). -/
def avsLimit (v : Nat) : Nat := min 850 (max 650 v) / 5 * 5

/-- Floor and ceiling in force (R444). -/
def State.avsBounds (s : State) : Nat × Nat :=
  let f := avsLimit (s.bits 0x50010 10 1)
  let c := avsLimit (s.bits 0x50010 20 11)
  let f := if s.trimBad 2 then max 750 f else f
  (f, max f c)

/-- AVS_LOOP (R442-R445): the smallest margin against the low and high targets, with what the regulator answers; none is a
failed AVSBus transaction. -/
def execAvsLoop (margin : Option Int) (lowTarget highTarget : Int) (readMv : Nat) := live (fun s =>
  if !s.pwr.avsRun || s.pwr.fatal || s.pwr.clkLost || !s.bit 0x50010 0 then s else
  match margin with
  | none =>
    let n := s.pwr.avsFail + 1
    if n < 3 then s.modPwr (fun p => { p with avsFail := n })
    else raise (srcGlobal 39) (s.modPwr (fun p => { p with avsFail := n, avsRun := false }))
  | some m =>
    let b := s.avsBounds
    let cur := s.avsNow
    let want := if m < lowTarget then cur + 5 else if highTarget < m then cur - 5 else cur
    let s0 := s
    let s := s.modPwr (fun p => { p with
      avsFail := 0, avsRead := readMv, avsCmd := min b.2 (max b.1 want),
      avsFloor := decide (want < b.1), avsCeil := decide (b.2 < want) })
    if (s.pwr.avsFloor && !s0.pwr.avsFloor) || (s.pwr.avsCeil && !s0.pwr.avsCeil) then raise (srcGlobal 40) s else s)

/-! ### Domain multiplexers -/

/-- MUX_HANG (R430): 10 µs after it began a switch is not complete. -/
def execMuxHang (t : Nat) (d : Fin 206) := live (fun s =>
  let s := s.at t
  let x := s.domAt d.val
  if x.switching.isSome && !x.inReset && decide (x.since + 10 * us ≤ s.now) then
    domainAssert d.val (raise (srcGlobal 34) s)
  else s)

/-- DOMAIN_RESET_RELEASE (R430, R438): 100 ns after the reset was asserted. -/
def execDomainResetRelease (t : Nat) (d : Fin 206) := live (fun s =>
  let s := s.at t
  let x := s.domAt d.val
  if x.inReset && decide (x.since + 100 * ns ≤ s.now) then domainRelease d.val s else s)

/-! ### GLB_RESET_CMD -/

/-- The result of a GLB_RESET_CMD word before its entry (R434). -/
def State.resetResult (s : State) (v : Nat) : Nat :=
  let level := v / 2 ^ 16 % 8
  let tgt := v % 256
  if v / 2 ^ 24 % 256 ≠ 0xA5 then 1
  else if level = 0 ∨ 4 < level ∨ (level ≤ 2 ∧ tgt ≠ 0) ∨ (level = 3 ∧ 32 ≤ tgt) ∨ (level = 4 ∧ 206 ≤ tgt) then 2
  else if level = 1 ∧ s.pwr.fatal then 3
  else if level = 4 ∧ protectedDomain tgt then 4
  else 0

/-- GLB_RESET_STATUS.result. -/
def resetDone (r : Nat) (s : State) : State := s.modGon (fun g => { g with rstResult := r })

/-- What a reset level does (R433). -/
def resetLevel (level tgt : Nat) (s : State) : State :=
  match level with
  | 1 => if s.pwr.dev then s else deviceEntry false false s
  | 2 => gondolaReset s
  | 3 => pathReset tgt s
  | _ => domainAssert tgt s

/-- A write of GLB_RESET_CMD (R434): it resets once its RESET entry is committed. -/
def resetCommand (o : Origin) (v : Nat) (s : State) : State :=
  let level := v / 2 ^ 16 % 8
  let tgt := v % 256
  let r := s.resetResult v
  if r = 3 then resetDone 3 (s.logEvent (s.resetEntry o 1 0))
  else if r ≠ 0 then resetDone r s
  else match s.commit (s.resetEntry o level (if level < 3 then 0 else tgt)) with
    | none => resetDone 5 (logRefused s)
    | some s => resetLevel level tgt (resetDone 0 s)

end Sys2Proof.Machine
end

