-- ==== Sys2Proof/Machine/Envelope.lean ====
section
/-! DEFINITION. Envelope: the checks of wrapped records, ENV_KEY_CMD, automatic rekey, master accesses to Spool space, and
integrity errors (R449-R476, R540). -/

namespace Sys2Proof.Machine

/-! ### Wrapped records -/

/-- Why a wrapped record fails to unwrap, by its cause of R475, in the order of R457. -/
def State.unwrapCause (s : State) (r : List Byte) : Option Nat :=
  let z (i n : Nat) : Bool := decide (field r i n = 0)
  let kind := field r 1 1
  if !Config.unwrapTagOk r s.pwr.rootId then some 1
  else if !(decide (field r 0 1 = 1) && (kind == 1 || kind == 2) && z 2 2 && z 28 4 && z 44 4 && (kind == 1 || z 32 12)) then some 2
  else if field r 8 8 ≠ s.pwr.rootId.toNat then some 3
  else if field r 4 4 = 0 then some 5
  else if kind = 1 ∧ Config.xtsHalvesEqual r then some 4
  else none

/-- A key index holds a usable record (R475). -/
def KeySt.usable (e : KeySt) : Bool := e.loaded && !e.bad

/-- The key_id is that of a loaded record (R456). -/
def State.keyIdUsed (s : State) (id : Nat) : Bool := s.env.key.entries.any (fun e => e.2.usable && e.2.keyId.toNat == id)

/-- A record stored at an index (R458, R465). -/
def storeKey (i : Nat) (r : List Byte) (s : State) : State :=
  s.modKey i (fun _ => { loaded := true, kind := field r 1 1, keyId := BitVec.ofNat 32 (field r 4 4), record := r })

/-- env_unwrap (R457, R475). -/
def unwrapFail (i cause : Nat) (s : State) : State := raiseD (srcGlobal 48) (i + 256 * cause) s

/-- A KEY_OP entry (R474). -/
def keyEntry (o : Origin) (op index slot keyId b : Nat) : LogReq :=
  { kind := 0x0E, origin := o, target := index + 2 ^ 8 * slot + 2 ^ 16 * op, a := keyId, b := b }

/-! ### ENV_KEY_CMD -/

/-- The record in ENV_KEY_DATA (R459, R540). -/
def State.keyData (s : State) : List Byte := (List.range 40).flatMap (fun i => bytesOf 4 (s.reg (0x60040 + 4 * i)).toNat)

/-- The slot is named by a running rekey (R460). -/
def State.rekeyNames (s : State) (o : Nat) : Bool := s.env.rkState != 0 && (s.env.rkOld == o || s.env.rkNew == o)

/-- The result of an operation of ENV_KEY_CMD before its entry (R460). -/
def State.keyResult (s : State) (o : Origin) (op i slot : Nat) : Nat :=
  let e := s.keyAt i
  let r := s.keyData
  if o = .debug then 8
  else match op with
  | 1 => if i = 0 then 9 else if s.noRoot then 7 else if e.usable then 2 else if (s.unwrapCause r).isSome then 1
         else if s.keyIdUsed (field r 4 4) then 3 else 0
  | 2 => if i = 0 then 9 else if s.noRoot then 7 else if e.usable then 2 else 0
  | 3 => if i = 0 ∨ (e.usable ∧ e.kind = 2) then 9 else if s.noRoot then 7 else if !e.usable then 5
         else if slot = 0 ∨ (s.env.slot.get none slot).isSome ∨ s.rekeyNames slot ∨ e.slot.isSome ∨ s.env.cleared then 4 else 0
  | 4 => if !(s.windowsOf slot).isEmpty || s.rekeyNames slot then 6 else 0
  | _ => if i = 0 then 9 else if !e.usable then 5 else if e.slot.isSome then 6 else 0

/-- The `j`-th identifier after `v` that no loaded record has. -/
def State.freshId (s : State) (v : Nat) : Nat :=
  ((List.range 256).map (fun j => 1 + (v + j) % (2 ^ 32 - 1))).find? (fun id => !s.keyIdUsed id) |>.getD 1

/-- The effect of an operation that has result 0 (R459). -/
def keyEffect (op i slot : Nat) (id : Nat) (s : State) : State :=
  match op with
  | 1 => storeKey i s.keyData s
  | 2 =>
    let w := fit 160 0 (Config.wrapGenerated s.freeCtr (BitVec.ofNat 32 id) s.pwr.rootId)
    (s.modKey i (fun _ => { loaded := true, kind := 1, keyId := BitVec.ofNat 32 id, record := w })).modEnv
      (fun e => { e with wrapped := w })
  | 3 => bindKey i slot s
  | 4 => zeroiseSlot slot s
  | _ => s.modKey i (fun _ => {})

/-- ENV_KEY_STATUS.result. -/
def keyDone (r : Nat) (s : State) : State := s.modEnv (fun e => { e with result := r })

/-- An operation of ENV_KEY_CMD (R459, R460): it commits with its KEY_OP entry; only result 0 changes anything. -/
def keyOp (o : Origin) (op i slot : Nat) (s : State) : State :=
  let r := s.keyResult o op i slot
  let v := s.free
  let id := s.freshId v.1
  let s := if op = 2 ∧ r = 0 then v.2 else s
  let named := match op with
    | 1 => field s.keyData 4 4
    | 2 => if r = 0 then id else 0
    | 4 => (s.keyAt ((s.env.slot.get none slot).getD 0)).keyId.toNat
    | _ => (s.keyAt i).keyId.toNat
  let s := match op, s.unwrapCause s.keyData with
    | 1, some c => if r = 1 then unwrapFail i c s else s
    | _, _ => s
  match s.commit (keyEntry o op i (if op = 3 ∨ op = 4 then slot else 0) named r) with
  | none => keyDone 8 (logRefused s)
  | some s => keyDone r (if r = 0 then keyEffect op i slot id s else s)

/-! ### Automatic rekey -/

/-- env_rekey of an automatic rekey that fails (R467, R475). -/
def autoFail (s : State) : State := raiseD (srcGlobal 51) 4 (s.modEnv (fun e => { e with auto := none }))

/-- A REKEY entry is loaded at the horizon into the lowest free slot of the table, local, with the core's origin (R467). -/
def autoLoad (c : Fin 4) (step old new : Nat) (s : State) : State :=
  match (List.range 1024).find? (fun k => !(s.schedAt k).valid), s.horizon with
  | some k, some h =>
    let a : Act := .rekey step old new
    let i := h / 4096
    schedLoad (.core c) k (BitVec.ofNat 32 i) (BitVec.ofNat 32 (i / 2 ^ 32 % 65536 + 2 ^ 20 * (h % 4096)))
      (BitVec.ofNat 32 (a.w2 false)) (BitVec.ofNat 32 (new + 16 * step)) s
  | _, _ => schedResult 5 s

/-- The steps of an automatic rekey of the record at index `i` up to its start (R467). -/
def autoStart (c : Fin 4) (i : Nat) (s : State) : State :=
  let range := (List.range 256).filter (fun j => decide (s.bits 0x60008 7 0 ≤ j) && decide (j ≤ s.bits 0x60008 15 8))
  match (s.keyAt i).slot, range.find? (fun j => j != 0 && !(s.keyAt j).usable), s.freeSlot with
  | some o, some j, some n =>
    let s := keyOp (.core c) 2 j 0 s
    if s.env.result ≠ 0 then autoFail s else
    let s := keyOp (.core c) 3 j n s
    if s.env.result ≠ 0 then autoFail s else
    let s := autoLoad c 0 o n s
    if s.sched.result ≠ 0 then autoFail s else s.modEnv (fun e => { e with auto := some c })
  | _, _, _ => autoFail s

/-- AUTO_REKEY (R467): device firmware reacts to env_nonce_near, and loads the retire once the rekey is complete. -/
def execAutoRekey (core : Fin 4) (index : Fin 256) := live (fun s =>
  if !s.gon.fwReady || !s.bit 0x60008 16 || s.pwr.fatal then s
  else match s.env.auto with
  | some c =>
    if s.env.rkState ≠ 3 then s else
    let s := autoLoad c 3 s.env.rkOld s.env.rkNew s
    if s.sched.result ≠ 0 then autoFail s else s.modEnv (fun e => { e with auto := none })
  | none =>
    if (s.keyAt index.val).slot.isSome && decide (2 ^ 31 ≤ (s.keyAt index.val).counter) then autoStart core index.val s else s)

/-! ### Master accesses -/

/-- A Spool address in its fields (R450): slot, stack, pseudo-channel, unit, byte; none where nothing stands. -/
def spoolAddr (a : Nat) : Option (Nat × Nat × Nat × Nat × Nat) :=
  let pc := a / 2 ^ 31 % 32
  let u := a / 2 ^ 12 % 2 ^ 19
  if 2 ^ 48 ≤ a ∨ a / 2 ^ 38 % 64 ≠ 0 ∨ a % 32 ≠ 0 ∨ 30 ≤ pc ∨ channelRows ≤ u then none
  else some (a / 2 ^ 44, a / 2 ^ 36 % 4, pc, u, a % 4096)

/-- The unit lies in the system area (R251). -/
def inSystem (u : Nat) : Bool := decide (294896 ≤ u)

/-- The records of striped row `row` with their streams, in data position order (R252). -/
def State.rowRecs (s : State) (row : Nat) : List (Nat × Rec) :=
  (s.streamsOf (fun _ => true)).flatMap (fun k => let x := s.strmAt k
    ((x.window ++ x.written ++ x.uncommitted).filter (fun r => decide (s.hbmRow k r = row))).map (fun r => (k, r)))

/-- What stands at a unit of striped space (R252): the record at its data position, none for a parity unit or an empty one. -/
def State.unitRec (s : State) (stack pc u : Nat) : Option (Nat × Rec) :=
  let j := (stack + 4 - (u % 4 + 1)) % 4
  if j = 3 then none else (s.rowRecs (30 * u + pc))[j]?

/-- The key identifier of a slot. -/
def State.slotKey (s : State) (o : Nat) : Word := (s.keyAt ((s.env.slot.get none o).getD 0)).keyId

/-- The 32 bytes of a word of Spool space with the slot that they were written under and their poison. -/
def State.memWord (s : State) (a stack pc u b : Nat) : List Byte × Nat × Bool :=
  match s.unitRec stack pc u with
  | some (k, r) => (((s.recBytes k r).drop (b / 32 * 32)).take 32, s.rowSlot k (30 * u + pc), r.poison)
  | none =>
    let w := a % 2 ^ 38
    ((List.range 32).map (fun i => s.spl.mem.get 0 (w + i)), s.spl.memSlot.get 0 w, s.spl.memPoison.get false w)

/-- The 32 bytes of a word of a data unit as HBM stores them (R449, R451). -/
def State.storedWord (s : State) (a stack pc u b : Nat) : List Byte :=
  let w := s.memWord a stack pc u b
  if w.2.1 = 0 then w.1 else fit 32 0 (Config.cipherWord (s.slotKey w.2.1) (a % 2 ^ 38) w.1)

/-- The unit is the parity unit of its row (R252). -/
def parityUnit (stack u : Nat) : Bool := (stack + 4 - (u % 4 + 1)) % 4 == 3

/-- A word of a parity unit as HBM stores it (R452): the XOR of the row's three data units as encrypted. -/
def State.parityWord (s : State) (a stack pc u b : Nat) : List Byte :=
  ([0, 1, 2, 3].filter (fun h => h != stack)).foldl (fun l h =>
    List.zipWith (· ^^^ ·) l (s.storedWord (a / 2 ^ 38 * 2 ^ 38 + h * 2 ^ 36 + a % 2 ^ 36) h pc u b)) (List.replicate 32 0)

/-- A right of master `m` over a slot: its 4-bit field (R471). -/
def State.rightsOf (s : State) (m slot : Nat) : Nat := s.bits (0x60300 + 8 * m + 4 * (slot / 8)) (4 * (slot % 8) + 3) (4 * (slot % 8))

/-- The 8 words of ENV_MEM_DATA. -/
def putData (bs : List Byte) (s : State) : State :=
  each (List.range 8) (fun i s => s.setReg (0x60420 + 4 * i) (BitVec.ofNat 32 (field bs (4 * i) 4))) s

/-- A refused access (R472): a read returns zeros. `told` raises env_access with its detail (R475). -/
def memRefuse (m slot : Nat) (write told : Bool) (s : State) : State :=
  let s := s.modEnv (fun e => { e with memRefused := true, memPoison := false })
  let s := if write then s else putData [] s
  if told then raiseD (srcGlobal 49) (m + 8 * slot + (if write then 128 else 0)) s else s

/-- A read of Spool space by master `m` (R471, R472). What is read decrypted under another slot than it was written under, from
a parity unit, or from the system area is a free value; so is a poisoned word. -/
def memReadAt (m a : Nat) (s : State) : State :=
  match spoolAddr a with
  | none => memRefuse m (a / 2 ^ 44 % 16) false false s
  | some (slot, stack, pc, u, b) =>
    let rd := s.rightsOf m slot % 4
    let free := s.free
    let open1 (s : State) : State := putData (bytesOf 32 (free.1 % 2 ^ 256)) { s with freeCtr := s.freeCtr + 1 }
    let ok (poison : Bool) (s : State) : State := s.modEnv (fun e => { e with memRefused := false, memPoison := poison })
    if inSystem u then (if m ≤ 3 then ok false (open1 s) else memRefuse m slot false true s)
    else if rd = 0 ∨ rd = 3 then memRefuse m slot false true s
    else
      let w := s.memWord a stack pc u b
      if parityUnit stack u then ok false (if rd = 1 then putData (s.parityWord a stack pc u b) s else open1 s)
      else if w.2.2 then ok true (open1 s)
      else if rd = 1 then ok false (putData (s.storedWord a stack pc u b) s)
      else if w.2.1 = slot then ok false (putData w.1 s)
      else ok false (open1 s)

/-- Replace 32 bytes of a record's 4,096. -/
def Rec.patched (r : Rec) (old : List Byte) (b : Nat) (w : List Byte) : Rec :=
  let n := recOf (old.take b ++ w ++ old.drop (b + 32))
  { n with poison := r.poison, com := r.com, row := r.row, accAt := r.accAt, place := r.place, begun := r.begun, sealedAt := r.sealedAt }

/-- A write of one word of Spool space (R365, R452, R472). Written to a parity unit it leaves nothing: the row's parity is computed anew
(DESIGN CHOICE, notes/assumptions/154.md). -/
def memPut (slot a stack pc u b : Nat) (w : List Byte) (s : State) : State :=
  if parityUnit stack u then s else match s.unitRec stack pc u with
  | some (k, r) =>
    let n := r.patched (s.recBytes k r) b w
    let f (l : List Rec) : List Rec := l.map (fun x => if x == r then n else x)
    s.modStrm k (fun x => { x with window := f x.window, written := f x.written, uncommitted := f x.uncommitted })
  | none =>
    let base := a % 2 ^ 38
    let s := each (List.range 32) (fun i s => s.modSpl (fun x => { x with mem := x.mem.set 0 (base + i) (w.getD i 0) })) s
    s.modSpl (fun x => { x with memSlot := x.memSlot.set 0 base slot, memPoison := x.memPoison.set false base false })

/-- A write of Spool space by master `m` (R471, R472); a slot without a key cannot encrypt. -/
def memWriteAt (m a : Nat) (w : List Byte) (s : State) : State :=
  match spoolAddr a with
  | none => memRefuse m (a / 2 ^ 44 % 16) true false s
  | some (slot, stack, pc, u, b) =>
    if inSystem u || decide (s.rightsOf m slot / 4 % 2 = 0) then memRefuse m slot true true s
    else if slot ≠ 0 ∧ (s.env.slot.get none slot).isNone then memRefuse m slot true false s
    else memPut slot a stack pc u b (fit 32 0 w) (s.modEnv (fun e => { e with memRefused := false, memPoison := false }))

/-- ENV_MEM_READ (R472). -/
def execEnvMemRead (master : Fin 7) (addr : BitVec 64) := live (memReadAt master.val addr.toNat)

/-- ENV_MEM_WRITE (R472). -/
def execEnvMemWrite (master : Fin 7) (addr : BitVec 64) (words : List Word) :=
  live (memWriteAt master.val addr.toNat (words.flatMap (fun w => bytesOf 4 w.toNat)))

/-! ### Integrity -/

/-- ENV_INTEGRITY (R354, R472, R475): comparators that disagree refuse the access; a bad key store record reads as empty; a bad slot
keeps its windows unavailable. -/
def execEnvIntegrity (rights keyStore slotEcc : Bool) (index : Fin 256) := live (fun s =>
  if !(rights || keyStore || slotEcc) then s else
  let s := if rights then memRefuse 0 0 false false s else s
  let s := if keyStore && (s.keyAt index.val).loaded then s.modKey index.val (fun e => { e with bad := true }) else s
  let s := if slotEcc then s.modEnv (fun e => { e with slotBad := e.slotBad ||| BitVec.ofNat 16 (2 ^ (index.val % 16)) }) else s
  raiseD (srcGlobal 50) ((if rights then 1 else 0) + (if keyStore then 2 else 0) + (if slotEcc then 4 else 0)) s)

/-! ### Restoring after a reset -/

/-- Envelope binds the key slots again from the retained records (R461, R470, R474); a rekey that the reset paused goes on. -/
def restoreKeys (s : State) : State :=
  if !s.env.cleared || s.pwr.fatal then s else
  let s := s.modEnv (fun e => { e with cleared := false, slotBad := 0, rkState := if e.rkHeld then 1 else e.rkState, rkHeld := false })
  each (List.range 16) (fun o s => match s.env.slot.get none o with
    | some i => s.logEvent (keyEntry .hardware 0x0D i o (s.keyAt i).keyId.toNat 0)
    | none => s) s

/-- A KEYREC item of the image (R461, R473, R474): loaded into its index, or skipped and logged. -/
def loadKeyrec (i : Nat) (r : List Byte) (s : State) : State :=
  let skip (b : Nat) (s : State) : State := s.logEvent (keyEntry (.image 5) 0x0E i 0 (field r 4 4) b)
  if (s.keyAt i).loaded then skip 3 s
  else if i = 0 ∨ s.noRoot then skip 1 s
  else match s.unwrapCause r with
    | some c => skip 1 (unwrapFail i c s)
    | none => if s.keyIdUsed (field r 4 4) then skip 2 (unwrapFail i 0 s) else storeKey i r s

end Sys2Proof.Machine
end

