-- ==== Sys2Proof/Machine/Image.lean ====
section
/-! DEFINITION. The configuration image: headers, sections, the choice of the generation and the load (R387-R396), and image
updates (R397-R399). -/

namespace Sys2Proof.Machine

/-! ### Headers, sections and items -/

/-- One item of an image section (R390). -/
inductive ImgItem where
  | writes (recs : List (Word × Word × Word))
  | blob (addr : Word) (bytes : List Byte)
  | sched (recs : List (Fin 1024 × Word × Word × Word × Word))
  | keyrec (index : Fin 256) (record : List Byte)
  | info (param : Word) (bytes : List Byte)
  | other (type : Byte)
deriving DecidableEq, Repr, Inhabited

/-- An image header (R387), with the two comparisons of R392 whose operands stand outside the model. -/
structure ImgHeader where
  magic       : Word
  format      : BitVec 16
  sections    : BitVec 16
  generation  : Word
  length      : Nat
  dir         : List DirEntry
  keyHashOk   : Bool
  signatureOk : Bool
deriving DecidableEq, Repr, Inhabited

/-- A section body on a chip: its type, its CRC-32C and SHA-384, and its items where they lie exactly within its length (R391). -/
structure ImgSection where
  type  : Nat
  crc   : Word
  sha   : BitVec 384
  items : Option (List ImgItem)
deriving DecidableEq, Repr, Inhabited

/-- A directory entry from its 64 bytes (R388). -/
def dirOf (b : List Byte) : DirEntry :=
  { type := field b 0 1, offset := field b 4 4, length := field b 8 4, crc := BitVec.ofNat 32 (field b 12 4),
    sha := BitVec.ofNat 384 (field b 16 48) }

/-- The header in an image's first bytes (R387). -/
def headerFields (b : List Byte) (keyOk sigOk : Bool) : ImgHeader :=
  { magic := BitVec.ofNat 32 (field b 0 4), format := BitVec.ofNat 16 (field b 4 2), sections := BitVec.ofNat 16 (field b 6 2),
    generation := BitVec.ofNat 32 (field b 8 4), length := field b 12 4,
    dir := (List.range 7).map (fun i => dirOf ((b.drop (32 + 64 * i)).take 64)), keyHashOk := keyOk, signatureOk := sigOk }

/-- A body cut into records of `n` bytes; none where it is no whole number of them (R390). -/
def recordsOf (n : Nat) (b : List Byte) : Option (List (List Byte)) :=
  if b.length % n = 0 then some ((List.range (b.length / n)).map (fun i => (b.drop (n * i)).take n)) else none

/-- The item of a type, a parameter and a body (R390); none where they form none. -/
def itemOf (type param : Nat) (b : List Byte) : Option ImgItem :=
  let w (r : List Byte) (o : Nat) : Word := BitVec.ofNat 32 (field r o 4)
  match type with
  | 1 => (recordsOf 16 b).map (fun rs => .writes (rs.map (fun r => (w r 0, w r 4, w r 8))))
  | 2 => some (.blob (BitVec.ofNat 32 param) b)
  | 3 => (recordsOf 24 b).map (fun rs => .sched (rs.map (fun r => (Fin.ofNat 1024 (field r 0 4), w r 8, w r 12, w r 16, w r 20))))
  | 4 => if param < 256 then some (.keyrec (Fin.ofNat 256 param) b) else none
  | 5 => some (.info (BitVec.ofNat 32 param) b)
  | t => some (.other (BitVec.ofNat 8 t))

/-- The items of a section body, without gaps (R388); none where they do not lie exactly within it. -/
def itemsOf : Nat → List Byte → Option (List ImgItem)
  | 0, b => if b.isEmpty then some [] else none
  | f + 1, b =>
    if b.isEmpty then some [] else
    let n := 8 * field b 1 3
    if b.length < 8 + n then none else
    match itemOf (field b 0 1) (field b 4 4) ((b.drop 8).take n), itemsOf f (b.drop (8 + n)) with
    | some i, some l => some (i :: l)
    | _, _ => none

/-- The header of a chip (R387). -/
def chipHead (c : NvmChip) : ImgHeader := headerFields c.bytes c.keyHashOk c.signatureOk

/-- The body of the section of entry `d`, the `i`-th of the directory, on a chip (R388); none where the chip does not hold it
whole. -/
def chipSection (c : NvmChip) (i : Nat) (d : DirEntry) : Option ImgSection :=
  let b := (c.bytes.drop d.offset).take d.length
  if b.length < d.length then none
  else some { type := d.type, crc := BitVec.ofNat 32 (crc32c b), sha := c.shas.getD i 0, items := itemsOf (b.length / 8) b }

/-! ### Validity -/

/-- Two directory entries do not overlap (R392). -/
def entryApart (a b : DirEntry) : Bool := decide (a.offset + a.length ≤ b.offset) || decide (b.offset + b.length ≤ a.offset)

/-- A directory entry's own fields hold (R388, R392). -/
def entryFits (d : DirEntry) (len : Nat) : Bool :=
  decide (d.offset % 4096 = 0) && decide (4096 ≤ d.offset) && decide (d.length % 16 = 0) && decide (d.offset + d.length ≤ len)

/-- No two entries of a directory overlap. -/
def dirApart : List DirEntry → Bool
  | [] => true
  | d :: t => t.all (entryApart d) && dirApart t

/-- The fields of a header hold, apart from its key and signature (R387, R392). -/
def headerFormed (h : ImgHeader) : Bool :=
  decide (h.magic = 0x575A494D) && decide (h.format = 1) && decide (h.sections = 7) && decide (1 ≤ h.generation.toNat)
    && decide (h.generation.toNat ≤ 0xFFFFFFFE) && decide (h.length ≤ 33554432)
    && decide (h.dir.map (·.type) = [1, 2, 3, 4, 5, 6, 7]) && h.dir.all (fun d => entryFits d h.length) && dirApart h.dir

/-- A header is valid (R392). -/
def headerValid (h : ImgHeader) : Bool := headerFormed h && h.keyHashOk && h.signatureOk

/-- The bits of a register that a section may set: staged and direct fields, train-common fields, and the mode of a path
(R158, R341). -/
def settable (a : Nat) : Nat :=
  match regInfo a with
  | none => 0
  | some i => if i.wo then 0 else i.st ||| i.di ||| i.tc ||| (match blockOf a with
      | some (.path _, o) => if o = 4 then 7 else 0
      | _ => 0)

/-- The bits of a register that a section of type `t` may set (R389). -/
def sectionMask (t a : Nat) : Nat :=
  let m := settable a
  let strm := (strmOfAddr a).isSome || (extOfAddr a).isSome
  match blockOf a, t with
  | some (.trn, _), 1 => match regInfo a with | some i => i.tc | none => 0
  | some (.trn, _), 2 => match regInfo a with | some i => m &&& (allBits ^^^ i.tc) | none => 0
  | some (.gon, o), 2 => if words o 0x1000 64 || words o 0x400 16 then 0 else m
  | some (.glb, _), 2 | some (.beat, _), 2 | some (.flt, _), 2 | some (.log, _), 2 | some (.cru, _), 2 | some (.env, _), 2
  | some (.dbg, _), 2 | some (.hbc _, _), 2 => m
  | some (.spl, o), 2 => if strm || decide (0x10000 ≤ o) then 0 else m
  | some (.sto, _), 2 => if strm then 0 else m
  | some (.die _, _), 3 => m
  | some (.brd, _), 4 | some (.path _, _), 4 | some (.qle _, _), 4 | some (.vrd _, _), 4 => m
  | some (.spl, o), 4 => if strm || decide (0x10000 ≤ o) then m else 0
  | some (.sto, _), 4 => if strm then m else 0
  | _, _ => 0

/-- An item is allowed in a section of type `t` (R389, R391). -/
def itemAllowed (t : Nat) : ImgItem → Bool
  | .writes recs => decide (1 ≤ t ∧ t ≤ 4) && recs.all (fun w =>
      (regInfo w.1.toNat).isSome && decide (sectionMask t w.1.toNat ≠ 0) && decide (w.2.2.toNat &&& (allBits ^^^ sectionMask t w.1.toNat) = 0))
  | .blob _ _ => t == 3 || t == 7
  | .sched _ => t == 6
  | .keyrec _ _ => t == 5
  | .info _ _ => decide (1 ≤ t ∧ t ≤ 7)
  | .other _ => false

/-- A section is valid under a directory entry (R391). -/
def sectionValid (x : ImgSection) (d : DirEntry) : Bool :=
  decide (x.type = d.type) && x.crc == d.crc && x.sha == d.sha && x.items.any (fun l => l.all (itemAllowed x.type))

/-! ### The choice of the generation -/

/-- The header of a chip, if it is valid. -/
def goodHeader (c : NvmChip) : Option ImgHeader := if headerValid (chipHead c) then some (chipHead c) else none

/-- The reference directory of a generation (R393). -/
def refDirOf (a b : NvmChip) (g : Word) : List DirEntry :=
  match goodHeader a, goodHeader b with
  | some h, k => if h.generation = g then h.dir else match k with
    | some h => if h.generation = g then h.dir else []
    | none => []
  | none, some h => if h.generation = g then h.dir else []
  | none, none => []

/-- A chip's copy of section `t` that matches generation `g` (R393). -/
def chipCopy (c : NvmChip) (ref : List DirEntry) (g : Word) (t : Nat) : Option ImgSection :=
  match goodHeader c with
  | none => none
  | some h =>
    if h.generation ≠ g then none else
    match h.dir[t - 1]?, ref.find? (·.type == t) with
    | some d, some r =>
      if d.crc == r.crc && d.sha == r.sha then (chipSection c (t - 1) d).filter (fun x => sectionValid x d) else none
    | _, _ => none

/-- The section types in load order (R389). -/
def sectionTypes : List Nat := [1, 2, 3, 4, 5, 6, 7]

/-- The copy of section `t` that is loaded, with its chip (R393). -/
def pickCopy (a b : NvmChip) (g : Word) (t : Nat) : Option (Nat × ImgSection) :=
  let ref := refDirOf a b g
  match chipCopy a ref g t with
  | some x => some (0, x)
  | none => (chipCopy b ref g t).map (fun x => (1, x))

/-- A generation is complete (R393). -/
def complete (a b : NvmChip) (g : Word) : Bool := sectionTypes.all (fun t => (pickCopy a b g t).isSome)

/-- The generations of the valid headers. -/
def generations (a b : NvmChip) : List Word := ((goodHeader a).toList ++ (goodHeader b).toList).map (·.generation)

/-- The highest of a list of generations. -/
def highest (l : List Word) : Option Word := l.foldl (fun m g => match m with
  | none => some g
  | some x => some (if x.toNat < g.toNat then g else x)) none

/-! ### The load -/

/-- One WRITES record takes effect (R390, R394, R420): masked, limited as its field's rule gives. PATH_MODE.mode is the path's
mode (R158). -/
def imageWrite (t : Nat) (s : State) (w : Word × Word × Word) : State :=
  let a := w.1.toNat
  let v := masked (s.reg a) w.2.1 (w.2.2 &&& BitVec.ofNat 32 (settable a))
  let put (v : Word) (s : State) : State :=
    match blockOf a with
    | some (.path n, 4) =>
      let s := if w.2.2.toNat &&& 7 = 7 then s.modPath n (fun p => { p with mode := modeOf (w.2.1.toNat % 8) }) else s
      s.setReg a (v &&& 0xFFFF0000)
    | _ => s.setReg a v
  if checkedBlock a then
    match fieldRule a v.toNat with
    | none => refuseWrite (.image t) a w.2.1.toNat 0 s
    | some x => put (BitVec.ofNat 32 x) s
  else put v s

/-- Bytes of a BLOB of the firmware section reach code RAM, patch RAM or the unit table (R502). Breakpoint mode is not set by an
image. -/
def loadCode (addr : Nat) (bytes : List Byte) (s : State) : State :=
  (bytes.zip (List.range bytes.length)).foldl (fun s x =>
    let a := addr + x.2
    if a < 2 ^ 23 then s.modGon (fun g => { g with code := g.code.set 0 a x.1 })
    else if 0x01000000 ≤ a ∧ a < 0x01000800 then s.modGon (fun g => { g with patch := g.patch.set 0 (a - 0x01000000) x.1 })
    else if 0x01001000 ≤ a ∧ a < 0x01001100 ∧ x.2 % 4 = 0 then
      let v := field bytes x.2 4
      s.modUnit ((a - 0x01001000) / 4) (fun _ => { enable := Nat.testBit v 31 && !Nat.testBit v 30, flash := BitVec.ofNat 25 v })
    else s) s

/-- Bytes of an item in its section: its header and its body in whole 8-byte words (R388). -/
def itemSize : ImgItem → Nat
  | .writes l => 8 + 16 * l.length
  | .blob _ b => 8 + (b.length + 7) / 8 * 8
  | .sched l => 8 + 24 * l.length
  | .keyrec _ r => 8 + (r.length + 7) / 8 * 8
  | .info _ b => 8 + (b.length + 7) / 8 * 8
  | .other _ => 8

/-- One item of a section takes effect (R390, R394, R461); `off` is its image offset. -/
def loadItem (t off : Nat) (i : ImgItem) (s : State) : State :=
  match i with
  | .writes recs => recs.foldl (imageWrite t) s
  | .blob addr bytes =>
    if t = 3 then s.modGon (fun g => { g with img := { g.img with dsp := g.img.dsp ++ [(addr, bytes)] } })
    else
      let s := loadCode addr.toNat bytes s
      if addr.toNat < 2 ^ 23 then
        s.modGon (fun g => { g with img := { g.img with flash := g.img.flash ++ [(addr.toNat, off + 8, bytes.length)] } })
      else s
  | .sched recs => recs.foldl (fun s r => schedLoad (.image 6) r.1.val r.2.1 r.2.2.1 r.2.2.2.1 r.2.2.2.2 s) s
  | .keyrec index r => loadKeyrec index.val r s
  | .info _ _ | .other _ => s

/-- The items of a section in order. -/
def loadItems (t : Nat) : Nat → List ImgItem → State → State
  | _, [], s => s
  | off, i :: l, s => loadItems t (off + itemSize i) l (loadItem t off i s)

/-- A section is loaded, with its IMAGE_LOAD entry (R394, R413); the train-common section gives the configuration digest
(R341). -/
def loadSection (g : Word) (dir : List DirEntry) (t : Nat) (x : Nat × ImgSection) (s : State) : State :=
  let off := ((dir.find? (·.type == t)).map (·.offset)).getD 0
  let s := loadItems t off (x.2.items.getD []) s
  let s := if t = 1 then s.modTrn (fun r => { r with ownDigest := (x.2.sha >>> 320).setWidth 64 }) else s
  s.logEvent { kind := 0x12, origin := .image t, target := t, a := g.toNat, b := x.1 }

/-- The addresses that a section's WRITES records name. -/
def sectionAddrs (x : ImgSection) : List Nat := (x.items.getD []).flatMap (fun i => match i with
  | .writes recs => recs.map (fun w => w.1.toNat)
  | _ => [])

/-- The seven sections of generation `g` are loaded in type order (R394); what their writes bring about follows. Through a
device reset the windows keep their slots (R461). -/
def loadImage (a b : NvmChip) (g : Word) (s : State) : State :=
  let ref := refDirOf a b g
  let picks := sectionTypes.filterMap (fun t => (pickCopy a b g t).map (fun x => (t, x)))
  let first := !s.gon.img.booted
  let s := s.modGon (fun g => { g with img := { g.img with dsp := [], flash := [] } })
  let s := picks.foldl (fun s p => loadSection g ref p.1 p.2 s) s
  let as := (picks.flatMap (fun p => sectionAddrs p.2.2)).eraseDups
  let s := afterWrites (as.filter (fun a => first || (strmOfAddr a).isNone)) s
  let chip := picks.foldl (fun m p => if p.2.1 = 1 then m ||| BitVec.ofNat 7 (2 ^ (p.1 - 1)) else m) 0
  let s := s.modGon (fun x => { x with
    imgVersion := Config.firmwareVersion g, img := { x.img with gRun := g, secChip := chip, refDir := ref, noImage := false } })
  let s := s.modTrn (fun r => { r with fwVersion := Config.firmwareVersion g })
  if chip ≠ 0 ∨ highest (generations a b) ≠ some g then raise (srcGlobal 62) s else s

/-- The state without an image (R395). -/
def noImage (fail : Bool) (s : State) : State :=
  let s := s.modGon (fun g => { g with img := { g.img with noImage := true, secChip := 0, refDir := [] } })
  if fail then raise (srcGlobal 63) s else s

/-- IMAGE_LOAD_COMPLETE (R393-R396): the highest complete generation at power-on, G_run alone after a device reset. -/
def execImageLoadComplete (t : Nat) (a b : NvmChip) := live (fun s =>
  let s := s.at t
  if !s.stepDone 6 || s.stepDone 8 || s.pwr.fatal then s else
  let boot := !s.gon.img.booted
  let gen (c : NvmChip) : Word := (chipHead c).generation
  let s := if boot then s.modGon (fun g => { g with img := { g.img with
      genA := gen a, genB := gen b, validA := (goodHeader a).isSome, validB := (goodHeader b).isSome } }) else s
  let s := if s.nvmMode = 3 then noImage false s
    else
      let cands := if boot then generations a b else [s.gon.img.gRun]
      match highest (cands.filter (fun g => complete a b g)) with
      | some g => loadImage a b g s
      | none => noImage true s
  let s := if a.lineFault || b.lineFault then raise (srcGlobal 64) s else s
  let s := s.modGon (fun g => { g with img := { g.img with booted := true } })
  trainStart (stepsDone [8] s))

/-! ### Image updates -/

/-- The chip that an update writes (R395, R397). -/
def State.inactiveChip (s : State) (v : Nat) : Option Nat :=
  let i := s.gon.img
  if i.noImage then some (v / 2 % 2)
  else if i.secChip = 0 then some 1
  else if i.secChip = 0x7F then some 0
  else none

/-- Change the image update. -/
def State.modUpd (s : State) (f : UpdSt → UpdSt) : State := s.modGon (fun g => { g with upd := f g.upd })

/-- A write of GLB_IMG_CMD (R397-R399): an update starts with its entry, or is refused with result 7. -/
def imageStart (o : Origin) (v : Nat) (s : State) : State :=
  if v % 2 = 0 then s else
  match s.inactiveChip v with
  | none => s.modUpd (fun u => { u with result := 7 })
  | some c =>
    if s.gon.upd.running || s.pwr.fatal || !s.gon.fwReady then s.modUpd (fun u => { u with result := 7 }) else
    match s.commit { kind := 0x11, origin := o, target := c, a := 0, b := 0xFF } with
    | none => logRefused s
    | some s => s.modUpd (fun _ => { running := true, chip := c, lastData := s.now, since := s.now, origin := o })

/-- IMAGE_UPDATE_TIMEOUT (R398): 10 s without mailbox data. -/
def execImageUpdateTimeout (t : Nat) := live (fun s =>
  let s := s.at t
  if s.gon.upd.running && decide (s.gon.upd.lastData + 10000 * ms ≤ s.now) then endUpdate 6 s else s)

/-- The header in an update's first bytes (R387), with the checks of its key and signature (R392). -/
def headerOf (s : State) (b : List Byte) : ImgHeader :=
  headerFields b
    (Config.sha384 ((b.drop 480).take 96) == Config.fusedKeyHash ((List.range 52).map (fun i => s.pwr.fuse.get 0 (152 + i))))
    (Config.signatureOk (b.take 672))

/-- The header of an update fails (R398): its result code, 0 for none. -/
def State.headerResult (s : State) (h : ImgHeader) : Nat :=
  let i := s.gon.img
  if !(h.keyHashOk && h.signatureOk) then 1
  else if !headerFormed h then 4
  else if i.noImage then 0
  else if h.generation.toNat < i.gRun.toNat ∨ (h.generation = i.gRun ∧ h.dir ≠ i.refDir) then 3
  else 0

/-- The header of a chip as GLB_IMAGE_STATUS reports it: not valid once its sector is erased, valid with its generation once it is
written again (R393, R398). -/
def chipHeader (c : Nat) (ok : Bool) (g : Word) (s : State) : State :=
  s.modGon (fun x => { x with img := if c = 0 then { x.img with validA := ok, genA := if ok then g else x.img.genA }
                                     else { x.img with validB := ok, genB := if ok then g else x.img.genB } })

/-- Bytes of an update arrived up to `next`: the checks that they complete (R398). `ok` says whether what was written reads back
equal. -/
def updateCheck (readback busError : Bool) (s : State) : State :=
  let u := s.gon.upd
  if !u.running then s
  else if u.stage = 0 then
    if u.next < 1024 then s else
    let h := headerOf s u.bytes
    let r := s.headerResult h
    let s := s.modUpd (fun u => { u with generation := h.generation })
    if r ≠ 0 then endUpdate r s
    else if busError then endUpdate 5 (chipHeader u.chip false 0 s)
    else chipHeader u.chip false 0 (s.modUpd (fun u => { u with stage := 1, total := h.length }))
  else if busError then endUpdate 5 s
  else if !readback then endUpdate 2 s
  else
    let h := headerOf s u.bytes
    let body (d : DirEntry) : List Byte := (u.bytes.drop d.offset).take d.length
    let bad := h.dir.any (fun d => decide (d.offset + d.length ≤ u.next) &&
      !(decide (crc32c (body d) = d.crc.toNat) && Config.sha384 (body d) == d.sha))
    if bad then endUpdate 2 s
    else if u.total ≤ u.next then endUpdate 0 (chipHeader u.chip true u.generation s)
    else s

/-- A chunk of image bytes at the expected offset (R398, R496). -/
def updateBytes (bytes : List Byte) (readback busError : Bool) (s : State) : State :=
  updateCheck readback busError (s.modUpd (fun u => { u with
    bytes := u.bytes ++ bytes, next := u.next + bytes.length, lastData := s.now }))

end Sys2Proof.Machine
end

