-- ==== Sys2Proof/Machine/RegView.lean ====
section
/-! DEFINITION. What a read of a register returns (R6, R526-R529, R532-R554): the stored value of an RW or RWS field, the state
of the device for an RO field, 0 for WO and RSV; wide registers read consistently (R527). -/

namespace Sys2Proof.Machine

/-! ### Parts -/

/-- Word `i` of a register's value. -/
def wordOf (v i : Nat) : Nat := v / 2 ^ (32 * i) % 2 ^ 32

/-- A bit as a number. -/
def b01 (b : Bool) : Nat := if b then 1 else 0

/-- A list of numbers laid out from bit 0 on, each `w` bits wide. -/
def packNats (w : Nat) : List Nat → Nat
  | [] => 0
  | x :: l => x % 2 ^ w + 2 ^ w * packNats w l

/-- A word of bytes, the first in [31:24]. -/
def byteWord (bs : List Byte) (i : Nat) : Nat := field bs (4 * i) 4

/-! ### Wide registers -/

/-- The register among these (offset and words) that holds the word at `o`: its offset and its words; else the word alone. -/
def spanIn (o : Nat) (l : List (Nat × Nat)) : Nat × Nat := (l.find? (fun x => words o x.1 x.2)).getD (o, 1)

/-- The same, at a stride: offsets of `l` repeat in blocks of `st` from `base`. -/
def spanStride (base st o : Nat) (l : List (Nat × Nat)) : Nat × Nat :=
  let q := (o - base) / st * st + base
  let r := spanIn (o - q) l
  (q + r.1, r.2)

/-- Offset in its block and number of words of the register that holds an address (R527). -/
def spanOf (b : Block) (o : Nat) : Nat × Nat :=
  match b with
  | .glb => spanIn o [(0x10, 4), (0x40, 6)]
  | .beat => spanIn o [(8, 2)]
  | .flt => spanIn o [(0x80C, 2), (0x850, 3)]
  | .log => spanIn o [(0, 8), (0x20, 2)]
  | .trn => if 0x1000 ≤ o then spanStride 0x1000 0x20 o [(0, 8)] else spanIn o [(0x100, 8)]
  | .env => spanIn o [(0, 2), (0x20, 4), (0x200, 4), (0x400, 2)]
  | .gon => spanIn o [(4, 2)]
  | .brd => if o < 0x800 then spanStride 0 0x40 o [(0x10, 5), (0x30, 3)] else (o, 1)
  | .qle _ => spanIn o [(0, 2), (8, 2), (0x10, 2), (0x20, 6), (0x40, 4), (0x50, 2)]
  | .vrd _ =>
    if o < 0x100 then spanIn o [(8, 2), (0x10, 3), (0x28, 2), (0x30, 2), (0x40, 2), (0x48, 2), (0x50, 2)]
    else if o < 0x300 then spanStride 0x100 0x40 o [(0, 16)]
    else if o < 0x800 then spanStride 0x400 0x40 o [(0, 2), (8, 4)]
    else if o < 0xC00 then spanStride 0x800 0x100 o [(0, 40)]
    else spanIn o [(0xC40, 96)]
  | .spl =>
    if o < 0x10000 then spanIn o [(0, 4)]
    else if o < 0x20000 then spanStride 0x10000 0x10 o [(0, 4)]
    else if o < 0x30000 then spanStride 0x20000 0x40 o [(0, 16)]
    else spanStride 0x30000 0x100 o [(0x20, 4), (0x40, 9), (0x70, 9), (0xA0, 9), (0xD0, 9)]
  | .hbc _ => spanIn o [(0, 2), (0x10, 8), (0x30, 2)]
  | .sto =>
    if o < 0x1000 then spanIn o [(0, 12), (0x40, 4)]
    else if o < 0x8000 then spanStride 0x1000 0x10 o [(0, 4)]
    else if o < 0x9000 then spanStride 0x8000 0x20 o [(0, 8)]
    else if 0x40000 ≤ o ∧ o < 0x80000 then laneSpan o
    else (o, 1)
  | .die _ => if o < 0x80000 then laneSpan o else (o, 1)
  | _ => (o, 1)
where
  /-- The lane template (R553). -/
  laneSpan (o : Nat) : Nat × Nat :=
    if o % 0x4000 < 0x100 then spanStride 0 0x4000 o [(0x10, 2), (0x20, 2), (0x30, 2), (0x50, 2)]
    else spanStride 0x100 0x10 o [(0, 4)]

/-- Address of word 0 and number of words of the register that holds an address. -/
def spanAt (a : Nat) : Nat × Nat :=
  match blockOf a with
  | none => (a, 1)
  | some (b, o) => let r := spanOf b o; (a - (o - r.1), r.2)

/-! ### The blocks -/

/-- GLB_STAGE_STATUS (R532). -/
def State.stageStatus (s : State) : Nat :=
  s.stg.result + 2 ^ 32 * s.stg.applying.toNat
    + 2 ^ 64 * packNats 16 ((List.range 8).map (fun k => (s.stg.sets.get [] k).length))

/-- GLB_IMAGE_STATUS (R532). -/
def State.imageStatus (s : State) : Nat :=
  let i := s.gon.img
  packNats 32 [i.secChip.toNat + 128 * b01 i.validB + 256 * b01 i.validA, i.gRun.toNat, i.genB.toNat, i.genA.toNat]

/-- Marginal words from `a` up to `b`. -/
def State.marginal (s : State) (a b : Nat) : Nat :=
  ((List.range (b - a)).filter (fun i => Nat.testBit s.pwr.fuseMarg.toNat (a + i))).length

/-- A number in two's complement of `w` bits. -/
def twos (w : Nat) (v : Int) : Nat := (v % (2 ^ w : Nat)).toNat

/-- GLB (R532). -/
def State.viewGlb (s : State) (o : Nat) : Nat :=
  if o = 4 then s.pwr.strap.toNat
  else if o = 8 then 2 ^ 16 * s.pwr.refused + 2 * b01 s.pwr.fatal + b01 s.gon.img.noImage
  else if words o 0x10 4 then wordOf s.imageStatus ((o - 0x10) / 4)
  else if o = 0x24 then 2 ^ 31 * b01 s.gon.upd.running + s.gon.upd.result
  else if words o 0x40 6 then wordOf s.stageStatus ((o - 0x40) / 4)
  else if o = 0x64 then s.gon.rstResult
  else if o = 0x80 then packNats 8 [s.marginal 0 80, s.marginal 80 152, s.marginal 152 204]
  else if words o 0x84 7 then wordOf s.pwr.fuseMarg.toNat ((o - 0x84) / 4)
  else if words o 0xC0 16 then twos 16 (s.pwr.temp.get 0 ((o - 0xC0) / 4))
  else regReset o |>.toNat

/-- BEAT_TIME (R533). -/
def State.beatWord (s : State) : Nat :=
  if s.beat.st = .none then 2 ^ 63 + s.beat.preNum % 2 ^ 60 else s.beatTime % 2 ^ 60

/-- BEAT and SCHED (R533). -/
def State.viewBeat (s : State) (o : Nat) : Nat :=
  if o = 0 then 16 * s.beat.user.toNat + 4 * b01 s.beat.inverted + s.beat.st.code
  else if words o 8 2 then wordOf s.beatWord ((o - 8) / 4)
  else if o = 0x10 then s.beat.period.getD 0
  else if o = 0x18 then 2 ^ 16 * s.beat.frameErr + s.beat.short
  else if o = 0x114 then
    2 ^ 16 * s.sched.refused + 8 * (s.sched.ent.entries.filter (fun e => e.2.valid)).length + s.sched.result
  else if words o 0x130 4 then
    let e := s.schedAt (s.bits 0x10120 9 0)
    ([e.w0, e.w1, e.w2, e.w3].getD ((o - 0x130) / 4) 0).toNat
  else 0

/-- The 32 bytes of a fault record (R360). -/
def recordBytes (r : FltRec) : List Byte :=
  bytesOf 2 r.source ++ [r.cls, r.reaction] ++ bytesOf 8 r.time.toNat ++ bytesOf 4 r.paths.toNat ++ bytesOf 4 r.detail.toNat
    ++ bytesOf 4 r.count.toNat ++ bytesOf 4 r.rseq.toNat ++ List.replicate 4 0

/-- FLT (R535). -/
def State.viewFlt (s : State) (o : Nat) : Nat :=
  if words o 0x400 136 then
    let k := (o - 0x400) / 4
    packNats 2 ((List.range 16).map (fun i => (s.srcAt (16 * k + i)).st))
  else if words o 0x80C 2 then
    wordOf (2 ^ 32 * s.flt.logLost + 2 ^ 16 * s.flt.recLost + s.flt.recs.length) ((o - 0x80C) / 4)
  else if words o 0x820 8 then (match s.flt.recs.head? with
    | none => 0
    | some r => byteWord (recordBytes r) ((o - 0x820) / 4))
  else if words o 0x850 3 then wordOf s.flt.resetCause.toNat ((o - 0x850) / 4)
  else 0

/-- LOG_STATUS (R536). -/
def State.logStatus (s : State) : Nat :=
  packNats 64 [s.logFree + 2 ^ 32 * s.log.infoLost, s.log.mirrored, s.log.newest + 1 - s.log.used, s.log.newest]

/-- LOG (R536). -/
def State.viewLog (s : State) (o : Nat) : Nat :=
  if words o 0 8 then wordOf s.logStatus (o / 4)
  else if o = 0x28 then s.log.readStatus.toNat
  else if words o 0x40 8 then (s.log.readData.getD ((o - 0x40) / 4) 0).toNat
  else 0

/-- TRN_STATUS (R537). -/
def State.trnStatus (s : State) : Nat :=
  let t := s.trn
  packNats 64 [t.bits + 2 ^ 8 * s.trainId + 2 ^ 32 * t.agree + 2 ^ 48 * t.slotErr, 0, t.masterDigest.toNat, t.ownDigest.toNat]

/-- TRN_PEER_STATUS of member `m` (R537). -/
def State.peerStatus (s : State) (m : Nat) : Nat :=
  let p := s.peerAt m
  packNats 32 [b01 p.present + 2 * b01 p.digestDiff + 4 * b01 p.versionDiff + 8 * b01 p.indexDiff + 2 ^ 8 * p.pathSlot
      + 2 ^ 13 * b01 p.pathDiff,
    p.since % 256 * 2 ^ 8 + p.heartbeat.toNat * 2 ^ 16 + p.flags.toNat * 2 ^ 24, 0, 0, 0, p.restarts, p.gen.toNat, p.fw.toNat]

/-- TRN (R537). -/
def State.viewTrn (s : State) (o : Nat) : Nat :=
  if words o 0x100 8 then wordOf s.trnStatus ((o - 0x100) / 4)
  else if words o 0x1000 512 then wordOf (s.peerStatus ((o - 0x1000) / 0x20)) (o % 0x20 / 4)
  else 0

/-! ### Clock domains -/

/-- A lane state's domain mode (R427): 0 run, 1 sleep, 2 deep-sleep. -/
def LaneState.domMode : LaneState → Nat
  | .run => 0
  | .doze => 1
  | _ => 2

/-- The mode that the conditions of R427 call for. -/
def State.calledMode (s : State) (d : Nat) : Nat :=
  let st (l : Nat) : LaneState := (s.laneAt l).st
  if d < 128 then (st d).domMode
  else if d < 160 then
    let ls := quadLanes (d - 128)
    if ls.any (fun l => st l == .run) then 0
    else if ls.all (fun l => st l == .moored || st l == .unassigned) then 2 else 1
  else if d < 176 then (if st (d - 32) = .doze then 1 else 0)
  else if d < 180 then (if (quadLanes (d - 144)).any (fun l => st l == .run) then 0 else 1)
  else if d = 193 then
    if s.pwr.dev || s.pwr.clkLost || s.pwr.fatal then 2
    else if paths.any (fun n => s.pathEn n && (s.pathAt n).mode.family)
      || s.port.entries.any (fun p => !(p.2.link.unres.isEmpty && p.2.link.cells.isEmpty)) then 0 else 1
  else if d = 195 then
    if paths.any (fun n => s.pathEn n && (s.pathAt n).mode.compares)
      || s.vrd.entries.any (fun p => p.2.ctx.entries.any (fun c => c.2.isOpen || c.2.forming != 0)) then 0 else 1
  else if 196 ≤ d ∧ d < 200 then (if (s.hbmAt (d - 196)).selfRefresh then 2 else 0)
  else if d = 201 then (if [0, 1, 2, 3].all (fun c => (s.coreAt c).waiting) then 1 else 0)
  else if d = 203 then (if s.gon.upd.running || s.gon.img.noImage || !s.stepDone 8 then 0 else 1)
  else if d = 204 then (if s.gon.mgmt.busy then 0 else 1)
  else 0

/-- An enabled path uses the domain: one of its lanes, quads or dies, or a core domain that it needs (R424, R426). -/
def State.domUsed (s : State) (d : Nat) : Bool :=
  if d < 128 then (s.pathOfLane d).isSome
  else if d < 160 then !(s.pathsWith (fun l => decide (l / 4 = d - 128))).isEmpty
  else if d < 180 then true
  else if d < 192 then !(s.pathsWith (fun l => decide (l / 32 = if d < 188 then (d - 180) / 2 else d - 188))).isEmpty
  else !(paths.filter s.pathEn).isEmpty

/-- The inputs that a domain has (R428). -/
def domInputs (d : Nat) : List Nat := if (128 ≤ d ∧ d < 160) ∨ (176 ≤ d ∧ d < 180) then [0, 1, 2] else [0, 1]

/-- The missing-edge monitor of input `i` reports edges. -/
def DomSt.edges (x : DomSt) (i : Nat) : Bool := Nat.testBit x.mon.toNat i

/-- CRU_DOM_STATUS of domain `d` (R426, R538, R539). -/
def State.domStatus (s : State) (d : Nat) : Nat :=
  let x := s.domAt d
  let cfg := s.bits (0x51000 + 8 * d) 2 0
  let run := cfg % 2 = 1
  let used := s.domUsed d
  let called := s.calledMode d
  let m := if called = 2 ∧ cfg / 4 % 2 = 0 then 1 else called
  let m := if m = 1 ∧ cfg / 2 % 2 = 0 then 0 else m
  let m := if x.inReset ∨ (!run ∧ !used) then 3 else m
  m + 8 * b01 x.lock + 16 * x.mon.toNat + 128 * b01 (x.edges x.input)
    + 256 * b01 ((domInputs d).all (fun i => i == x.input || x.edges i)) + 512 * b01 (!run && used) + 1024 * x.input

/-- CRU_AVS_STATUS (R538). -/
def State.avsStatus (s : State) : Nat :=
  b01 s.pwr.avsFloor + 2 * b01 s.pwr.avsCeil + 4 * (s.pwr.avsCmd % 1024) + 2 ^ 12 * (s.pwr.avsRead % 1024)

/-- CRU (R538). -/
def State.viewCru (s : State) (o : Nat) : Nat :=
  if o = 4 then s.gon.muxResult + 2 ^ 31 * b01 (s.dom.entries.any (fun d => d.2.switching.isSome))
  else if o = 0x14 then s.avsStatus
  else if words o 0x1000 412 then (if o % 8 = 0 then 7 else s.domStatus ((o - 0x1000) / 8))
  else 0

/-! ### Envelope and Gondola -/

/-- ENV_KEY_INFO of the selected index (R458, R540). -/
def State.keyInfo (s : State) : Nat :=
  let e := s.keyAt (s.bits 0x60018 7 0)
  if !e.usable then 0 else
  packNats 32 [1 + 2 ^ 8 * e.kind + 2 ^ 10 * b01 e.sealRefused + 2 ^ 11 * b01 e.slot.isSome + 2 ^ 12 * e.slot.getD 0,
    e.keyId.toNat, e.counter, min (2 ^ 32 - 1) e.mark]

/-- ENV_REKEY_STATUS (R540). -/
def State.rekeyStatus (s : State) : Nat :=
  let e := s.env
  packNats 32 [e.rkResult + 2 ^ 6 * e.rkState + 2 ^ 8 * e.rkOld + 2 ^ 12 * e.rkNew, e.rkBoundary, e.rkTotal, e.rkDone]

/-- ENV (R540). -/
def State.viewEnv (s : State) (o : Nat) : Nat :=
  if words o 0 2 then wordOf s.pwr.rootId.toNat (o / 4)
  else if o = 0x14 then s.env.result + 2 ^ 31 * b01 s.env.busy
  else if words o 0x20 4 then wordOf s.keyInfo ((o - 0x20) / 4)
  else if words o 0x100 40 then byteWord s.env.wrapped ((o - 0x100) / 4)
  else if words o 0x200 4 then wordOf s.rekeyStatus ((o - 0x200) / 4)
  else if o = 0x40C then b01 s.env.memRefused + 2 * b01 s.env.memPoison
  else 0

/-- GON_LOCKn as a read finds it (R487, R541): the holder, and whether the lock is taken. -/
def State.lockWord (s : State) (n : Nat) : Nat :=
  match (s.gon.lock.get {} n).holder with
  | none => 0
  | some o => 2 ^ 8 * o.code

/-- GON_PATCHu (R541). -/
def UnitSt.word (x : UnitSt) : Nat :=
  x.flash.toNat + 2 ^ 25 * b01 x.all + 2 ^ 26 * x.mask.toNat + 2 ^ 30 * b01 x.brk + 2 ^ 31 * b01 x.enable

/-- GON (R541). -/
def State.viewGon (s : State) (o : Nat) : Nat :=
  let g := s.gon
  let out := (s.mbAt 0).outQ
  if o = 0 then b01 g.fwReady + packNats 1 ([0, 1, 2, 3].map (fun c => b01 ((s.coreAt c).waiting && !(s.coreAt c).halted))) * 16
  else if o = 4 then g.eccMem + 2 ^ 16 * g.eccCount
  else if o = 8 then g.eccAddr.toNat
  else if o = 0x24 then s.mgmtMode + 2 ^ 7 * b01 g.mgmt.ibi + 2 ^ 8 * g.mgmt.busErr + 2 ^ 16 * g.mgmt.dynAddr.toNat
  else if o = 0x44 then g.postResult + 2 ^ 8 * out.length + 2 ^ 12 * (8 - (s.mbAt 0).inQ.length) + 2 ^ 16 * g.dropped
  else if words o 0x200 64 then (match out.head? with
    | none => 0
    | some m => byteWord (msgBytes m) ((o - 0x200) / 4))
  else if words o 0x400 16 then s.lockWord ((o - 0x400) / 4)
  else if words o 0x1000 64 then (s.unitAt ((o - 0x1000) / 4)).word
  else 0

/-- The authentication lockout is in force (R515). -/
def State.lockedOut (s : State) : Bool := match s.dbg.lockEnd with | none => false | some t => decide (s.now < t)

/-- DBG_STATUS (R513). -/
def State.dbgStatus (s : State) : Nat :=
  2 ^ 12 * min 255 s.dbg.fails + 2 ^ 20 * s.dbg.hos.toNat + 2 ^ 24 * packNats 1 ([0, 1, 2, 3].map (fun c => b01 (s.coreAt c).halted))
    + 2 ^ 28 * b01 s.lockedOut + 2 ^ 29 * (if s.dbg.isOpen then s.dbg.level else 0) + 2 ^ 31 * b01 s.dbg.isOpen

/-- DBG (R542). -/
def State.viewDbg (s : State) (o : Nat) : Nat :=
  if o = 0 then 0x06424B57
  else if o = 4 then s.dbgStatus
  else if words o 0x10 4 then
    let c := s.coreAt ((o - 0x10) / 4)
    if c.halted then c.cause + 2 ^ 8 * c.unit else 0
  else 0

/-! ### Paths, ports, links -/

/-- A held definition waits for path `n` (R157). -/
def State.pathDef (s : State) (n : Nat) : Bool := s.stg.held.any (fun h => (h.cause == 1 || h.cause == 2) && h.path == s.leadOf n)

/-- PATH n (R543). -/
def State.viewPath (s : State) (n o : Nat) : Nat :=
  let p := s.pathAt n
  if o = 8 then p.phase.code + 2 ^ 5 * b01 (s.pathDef n) + 2 ^ 6 * b01 p.retrain + 2 ^ 7 * b01 p.safe
  else if o = 0x14 then
    p.iTrain + 2 ^ 3 * p.dTrain + 2 ^ 6 * p.retimer + 2 ^ 8 * p.laneOrder + 2 ^ 10 * p.kindI + 2 ^ 13 * p.kindD
  else 0

/-- BRD (R545). -/
def State.viewBrd (s : State) (o : Nat) : Nat :=
  let q := s.portAt (o / 0x40)
  if o < 0x800 ∧ words (o % 0x40) 0x30 3 then
    ([q.active, q.pool, q.dropped].getD ((o % 0x40 - 0x30) / 4) 0).toNat
  else 0

/-- QLE n (R546). -/
def State.viewQle (s : State) (n o : Nat) : Nat :=
  let p := s.portAt n
  let c := p.cnt
  if words o 8 2 then
    wordOf (2 ^ 8 * p.lad.step + 2 ^ 12 * p.lad.rate + 2 ^ 14 * p.lad.eligible.toNat + 2 ^ 32 * p.lad.badSets) ((o - 8) / 4)
  else if words o 0x20 6 then [c.lostRs, c.lostCrc, c.malformed, c.dup, c.noCell, c.late].getD ((o - 0x20) / 4) 0
  else if words o 0x40 4 then
    wordOf (c.peerHop.toNat + 2 ^ 2 * p.link.tunnel + 2 ^ 8 * p.link.ack.toNat + 2 ^ 32 * p.link.next.toNat
      + 2 ^ 64 * c.peerBeat.toNat) ((o - 0x40) / 4)
  else if words o 0x50 2 then [c.rttLast, c.rttMax].getD ((o - 0x50) / 4) 0
  else 0

/-! ### Verdicts -/

/-- The newest formed bank of a context (R317). -/
def CtxSt.formed (x : CtxSt) : Option WinSt := x.newest.map (fun b => if b = 0 then x.bank0 else x.bank1)

/-- VRD_LANE_RESULT (R548). -/
def laneWords (r : LaneRes) : List Nat :=
  let two (v : Nat) : List Nat := [wordOf v 0, wordOf v 1]
  let three (v : Nat) : List Nat := [wordOf v 0, wordOf v 1, wordOf v 2]
  let ff := r.ff.getD (0, 0, 0, 0, 0)
  two r.err ++ two r.cmp ++ two r.summed ++ two r.unsummed ++ three r.acc0 ++ three r.acc1
    ++ [b01 r.sat + 2 * b01 r.histSat + 4 * b01 r.ff.isSome, 0]
    ++ two ff.1.toNat ++ two ff.2.1.toNat ++ two ff.2.2.1.toNat ++ two ff.2.2.2.1.toNat ++ two ff.2.2.2.2.toNat
    ++ List.replicate 6 0 ++ (List.range 64).map (fun i => r.hist.get 0 i)

/-- VRD n (R547, R548). -/
def State.viewVrd (s : State) (n o : Nat) : Nat :=
  let p := s.pairAt n
  if 0x400 ≤ o ∧ o < 0x500 ∧ o % 0x40 = 0x18 then
    let c := s.ctxAt n ((o - 0x400) / 0x40)
    b01 c.isOpen + 2 * c.forming.toNat + 2 ^ 16 * c.ignored
  else if 0x800 ≤ o ∧ o < 0xC00 then
    let c := (o - 0x800) / 0x100
    (match (s.ctxAt n c).formed with
     | none => 0
     | some w => byteWord (resultMsg n c w) (o % 0x100 / 4))
  else if words o 0xC40 96 then
    let sel := s.bits (aVrd n + 0xC00) 5 0
    (match (s.ctxAt n (sel / 16)).formed with
     | none => 0
     | some w => (laneWords (w.lane.get {} (sel % 16))).getD ((o - 0xC40) / 4) 0)
  else if o = 0xE00 then
    p.delta.getD 0 + 2 ^ 22 * p.satCtx.toNat + 2 ^ 31 * b01 (s.stg.held.any (fun h => h.cause == 4 && h.path == s.leadOf n))
  else 0

/-! ### Spool, HBM, store -/

/-- SPL_STREAM_STATUS of stream `k` (R549). -/
def State.streamStatus (s : State) (k : Nat) : Nat :=
  let x := s.strmAt k
  let deff := s.stg.held.any (fun h => h.cause == 3 && (strmOfAddr h.wr.addr.toNat).or (extOfAddr h.wr.addr.toNat) == some k)
  packNats 64 [x.accepted, x.durable] + 2 ^ 128 * packNats 32 [x.gap, x.decStaging, x.decWindow, x.decKey, x.loadErr,
    2 ^ 8 * x.keyIdx + 2 ^ 28 * b01 x.armed + 2 ^ 29 * b01 x.isOpen + 2 ^ 30 * b01 x.preDone + 2 ^ 31 * b01 deff, s.posFree k]

/-- SPL (R549). -/
def State.viewSpl (s : State) (o : Nat) : Nat :=
  if o = 0x10 then s.spl.cmdResult + 2 ^ 31 * b01 s.spl.cmdBusy
  else if 0x20000 ≤ o ∧ o < 0x30000 then wordOf (s.streamStatus ((o - 0x20000) / 0x40)) (o % 0x40 / 4)
  else if 0x30000 ≤ o ∧ o < 0x32000 then
    let p := s.pathAt ((o - 0x30000) / 0x100)
    if o % 0x100 = 4 then p.splCause.toNat
    else if words (o % 0x100) 0x20 4 then p.hits.getD ((o % 0x100 - 0x20) / 4) 0
    else 0
  else 0

/-- HBC_PC_MAP of stack `h` (R550). -/
def State.pcMap (s : State) (h : Nat) : Nat :=
  let x := s.hbmAt h
  packNats 8 ((List.range 30).map (fun c => x.map.get c c + 128 * b01 (x.unmapped.getLsbD c))
    ++ [30 + 128 * b01 (x.used.getLsbD 1), 31 + 128 * b01 (x.used.getLsbD 0)])

/-- HBC n (R550). -/
def State.viewHbc (s : State) (h o : Nat) : Nat :=
  let x := s.hbmAt h
  if words o 0x10 8 then wordOf (s.pcMap h) ((o - 0x10) / 4)
  else if o = 0x30 then
    x.link + 2 ^ 6 * b01 x.selfRefresh + 2 ^ 7 * b01 x.rebuild.isSome + 2 ^ 8 * ((x.rebuild.map (·.1)).getD 0) + 2 ^ 24 * (x.celsius % 256)
  else if o = 0x34 then (x.rebuild.map (·.2)).getD 0
  else 0

/-- A lane's read-only registers (R553). -/
def State.viewLane (s : State) (l p : Nat) : Nat :=
  let x := s.laneAt l
  let st := match x.st with | .unassigned => 0 | .run => 1 | .doze => 2 | .moored => 3
  let an := match x.anchor with | .search => 0 | .candidate => 1 | .locked => 2
  if p = 4 then
    b01 x.precTx + 2 * b01 x.precRx + 2 ^ 3 * b01 x.rxInv + 2 ^ 4 * an + 2 ^ 8 * st + 2 ^ 10 * b01 x.eligible + 2 ^ 11 * b01 x.fuseBad
      + 2 ^ 24 * x.peerLane.toNat
  else if p = 0x40 then x.anchorReg.toNat
  else if p = 0x44 then x.sense.toNat
  else if p = 0x58 then x.wskEnd + 2 ^ 2 * x.wskDone + 2 ^ 31 * b01 (x.wskOp != 0)
  else if words p 0x100 1024 then
    let r := x.wskRes.get (0, 0) ((p - 0x100) / 16)
    wordOf (r.1 + 2 ^ 64 * r.2) (p % 16 / 4)
  else 0

/-- QUAD_STATUS (R554). -/
def State.viewQuad (s : State) (q : Nat) : Nat :=
  let x := s.quadAt q
  2 * b01 x.pll + 4 * b01 x.cfgEcc + 8 * b01 x.calFailed + 16 * x.input

/-- DIE_STATUS (R554). -/
def State.viewDie (s : State) (j : Nat) : Nat := (s.dieAt j).link + 2 ^ 16 * min 255 (s.dieAt j).corrected

/-- STO with the store lanes and quads (R551). -/
def State.viewSto (s : State) (o : Nat) : Nat :=
  let ds := (List.range 16).map s.driveAt
  if words o 0x40 4 then
    wordOf (s.sto.up.toNat + 2 ^ 8 * (ds.filter (fun d => d.st == 1)).length + 2 ^ 16 * s.sto.group + 2 ^ 64 * s.sto.rows) ((o - 0x40) / 4)
  else if 0x8000 ≤ o ∧ o < 0x8200 then
    let d := s.driveAt ((o - 0x8000) / 0x20)
    wordOf (d.st + 2 ^ 4 * d.port + 2 ^ 128 * d.boundary + 2 ^ 192 * d.capacity) (o % 0x20 / 4)
  else if 0x40000 ≤ o ∧ o < 0x80000 then s.viewLane (128 + (o - 0x40000) / 0x4000) (o % 0x4000)
  else if 0x80000 ≤ o ∧ o < 0x84000 then s.viewQuad (32 + (o - 0x80000) / 0x1000)
  else 0

/-! ### The word at an address -/

/-- What the read-only bits of the word at an address show: the state of the device. -/
def State.live (s : State) (a : Nat) : Nat :=
  match blockOf a with
  | none => 0
  | some (b, o) =>
    match b with
    | .glb => s.viewGlb o
    | .beat => s.viewBeat o
    | .flt => s.viewFlt o
    | .log => s.viewLog o
    | .trn => s.viewTrn o
    | .cru => s.viewCru o
    | .env => s.viewEnv o
    | .gon => s.viewGon o
    | .dbg => s.viewDbg o
    | .path n => s.viewPath n o
    | .brd => s.viewBrd o
    | .qle n => s.viewQle n o
    | .vrd n => s.viewVrd n o
    | .spl => s.viewSpl o
    | .hbc n => s.viewHbc n o
    | .sto => s.viewSto o
    | .die j =>
      if o < 0x80000 then s.viewLane (32 * j + o / 0x4000) (o % 0x4000)
      else if o < 0x900000 then s.viewQuad (8 * j + (o - 0x800000) / 0x1000)
      else s.viewDie j

/-- The value of the word at an address now, whatever was latched (R6, R526): 0 where no register stands and for a write-only
one, the state of the device for a read-only one, else what is stored. PATH_MODE.mode reads the mode in force. -/
def State.word (s : State) (a : Nat) : Word :=
  match regInfo a with
  | none => 0
  | some i =>
    if i.wo then 0
    else if words a 0x70400 16 ∨ words a 0x71000 64 ∨ a = 0x20858 ∨ i.st ||| i.di ||| i.tc = 0 then BitVec.ofNat 32 (s.live a)
    else match blockOf a with
      | some (.path n, 4) => s.reg a ||| BitVec.ofNat 32 (s.pathAt n).mode.code
      | _ => s.reg a

/-! ### Reads -/

/-- A read of GON_LOCKn (R487, R541): it takes a free lock where the origin may take it, and shows a revoked lock to its
former holder once. -/
def readLock (o : Origin) (may : Bool) (n : Nat) (s : State) : Nat × State :=
  let l := s.gon.lock.get {} n
  let rev := l.revoked == some o
  let s := if rev then s.modLock n (fun l => { l with revoked := none }) else s
  match l.holder with
  | some h => (2 ^ 8 * h.code + 2 ^ 12 * b01 rev, s)
  | none =>
    if may then (1 + 2 ^ 8 * o.code + 2 ^ 12 * b01 rev, s.modLock n (fun l => { l with holder := some o, since := s.now }))
    else (2 ^ 12 * b01 rev, s)

/-- The origin may take and release lock `n` (R488): firmware and the debug wire all, the management bus 8-15; a mailbox none. -/
def lockAllowed (o : Origin) (n : Nat) : Bool :=
  match o with
  | .core _ | .debug => true
  | .mgmt => decide (8 ≤ n)
  | _ => false

/-- A read of one word by an origin (R526, R527). `mb`: the read comes through a mailbox. -/
def readWord (o : Origin) (mb : Bool) (a : Nat) (s : State) : Word × State :=
  if words a 0x70400 16 ∧ a % 4 = 0 then
    let n := (a - 0x70400) / 4
    let r := readLock o (lockAllowed o n && !mb) n s
    (BitVec.ofNat 32 r.1, r.2)
  else
    let sp := spanAt a
    if sp.2 = 1 ∨ (regInfo a).isNone then (s.word a, s)
    else if a = sp.1 then
      let up := (List.range (sp.2 - 1)).map (fun i => s.word (a + 4 * (i + 1)))
      (s.word a, { s with regs := { s.regs with latch := s.regs.latch.set none a (some up) } })
    else match s.regs.latch.get none sp.1 with
      | none => (s.word a, s)
      | some l => (l.getD ((a - sp.1) / 4 - 1) 0, s)

/-- WIDE_REGISTER_READ (R527): a read of word 0 of a wide register latches its upper words. -/
def execWideRegisterRead (o : Origin) (addr : Word) := done (fun s => if s.unclocked then s else (readWord o false addr.toNat s).2)

end Sys2Proof.Machine
end

