-- ==== Sys2Proof/Machine/Write.lean ====
section
/-! DEFINITION. A direct write of a register (R400, R488, R517, R526-R528): when it is refused, its REG_WRITE entry, and what each
command register does. -/

namespace Sys2Proof.Machine

/-! ### What is refused -/

/-- The bits of a write-only command word that are fields (R532-R541). -/
def cmdMask (a : Nat) : Nat :=
  match a with
  | 0x20 => 3
  | 0x3C => 0x73
  | 0x60 => 0xFF0700FF
  | 0x10110 => 0x303FF
  | 0x20800 => 0xFFF
  | 0x20840 => 1
  | 0x50000 => 0xFF03
  | 0x60010 => 0xFF0F07
  | 0x60408 => 3
  | 0x70010 => 0xF
  | 0x70040 => 3
  | _ => allBits

/-- The RSV bits of a word that has writable fields: every bit in no field of it. -/
def rsvBits (a : Nat) (i : RegInfo) : Nat :=
  if i.wo then allBits ^^^ cmdMask a
  else
    let w := i.st ||| i.di ||| i.tc
    if w = 0 then 0 else allBits ^^^ (w ||| (if a = 0x20858 then 0xFFF else match blockOf a with
      | some (.path _, 4) => 7
      | _ => 0))

/-- The origin may write the registers marked F (R488, R528). -/
def ownsF : Origin → Bool
  | .core _ | .debug => true
  | _ => false

/-- An address of the ENV or DBG block. -/
def envOrDbg (a : Nat) : Bool := (0x60000 ≤ a && a < 0x70000) || (0x80000 ≤ a && a < 0x90000)

/-- The debug wire may not make this write (R517). -/
def debugRefuses (a v : Nat) : Bool := envOrDbg a || a == 0x20 || (a == 0x30 && envOrDbg (v / 4 * 4))

/-- A value that breaks a field's own rule (R420, R502, R535, R540). -/
def State.valueBad (s : State) (o : Origin) (a v : Nat) : Bool :=
  if a = 0x20800 then decide (2175 < v)
  else if a = 0x60010 then v % 8 == 0 || decide (5 < v % 8)
  else if a = 0x60408 then v % 4 == 0 || v % 4 == 3
  else if a = 0x60400 then v % 32 != 0
  else if words a 0x71000 64 then o != .debug && Nat.testBit v 30 && v != (s.word a).toNat
  else false

/-- A direct write is refused (R400, R420, R488, R517, R526); `mb`: it comes through a mailbox. -/
def State.writeRefused (s : State) (o : Origin) (mb : Bool) (a v : Nat) : Bool :=
  match regInfo a with
  | none => true
  | some i =>
    decide (((s.reg a).toNat ^^^ v) &&& (i.st ||| i.tc) ≠ 0)
      || (i.fw && !ownsF o)
      || (words a 0x70420 8 && (mb || !lockAllowed o ((a - 0x70400) / 4)))
      || (decide (v &&& rsvBits a i ≠ 0) && (checkedBlock a || o == .debug))
      || s.valueBad o a v
      || (o == .debug && debugRefuses a v)

/-! ### Command registers -/

/-- GLB_STAGE_CMD (R401, R532). -/
def stageCommand (o : Origin) (v : Nat) (s : State) : State :=
  if v % 4 = 1 then stageAppend o (v / 16 % 8) (s.reg 0x30) (s.reg 0x34) (s.reg 0x38) s
  else if v % 4 = 2 then stageClear o (v / 16 % 8) s
  else s

/-- SCHED_CMD (R59, R533). -/
def schedCommand (o : Origin) (v : Nat) (s : State) : State :=
  let op := v / 2 ^ 16 % 4
  if op = 1 then schedLoad o (v % 1024) (s.reg 0x10100) (s.reg 0x10104) (s.reg 0x10108) (s.reg 0x1010C) s
  else if op = 2 then schedCancel o (v % 1024) s
  else s

/-- FLT_REC_POP (R360, R535). -/
def popRecord (v : Nat) (s : State) : State :=
  if v % 2 = 1 then { s with flt := { s.flt with recs := s.flt.recs.drop 1 } } else s

/-- The Logbook entry in LOG_READ_SEQ is fetched (R416, R536). -/
def logFetch (s : State) : State :=
  let q := (s.reg 0x30020).toNat + 2 ^ 32 * (s.reg 0x30024).toNat
  let put (st : BitVec 2) (d : List Word) : State := { s with log := { s.log with readStatus := st, readData := d } }
  if q = 0 ∨ s.log.newest < q then put 0 []
  else if s.log.used ≤ s.log.newest - q then put 1 []
  else match s.log.ring[s.log.newest - q]? with
    | none => put 0 []
    | some e => let bs := entryBytes e; put 2 ((List.range 8).map (fun i => BitVec.ofNat 32 (byteWord bs i)))

/-- CRU_MUX_CMD (R428-R431, R438, R534): the domain and the input of a switch. -/
def muxRequest (v : Nat) (s : State) : State := requestSwitch (v / 2 ^ 8 % 256) (v % 4) s

/-- The master number of an origin (R471). -/
def masterOf : Origin → Nat
  | .core c => c.val
  | .debug => 4
  | _ => 6

/-- ENV_MEM_CMD (R472). -/
def memCommand (o : Origin) (v : Nat) (s : State) : State :=
  let a := (s.reg 0x60400).toNat + 2 ^ 32 * s.bits 0x60404 15 0
  if v % 4 = 1 then memReadAt (masterOf o) a s
  else memWriteAt (masterOf o) a ((List.range 8).flatMap (fun i => bytesOf 4 (s.reg (0x60420 + 4 * i)).toNat)) s

/-- GON_WDT (R483, R541). -/
def restartWdt (v : Nat) (s : State) : State :=
  each ((List.range 4).filter (fun c => Nat.testBit v c)) (fun c s => s.modCore c (fun x => { x with wdt := if x.halted then 0 else s.now })) s

/-- A message in GON_MB_IN (R495). -/
def State.mbIn (s : State) : MbMsg := msgOf ((List.range 64).flatMap (fun i => bytesOf 4 (s.reg (0x70100 + 4 * i)).toNat))

/-- The header of a message holds (R494). -/
def headerOk (m : MbMsg) : Bool :=
  decide (m.kind.toNat ≤ 2) && m.rsv5 == 0 && m.rsv8.all (· == 0) && decide (m.length.toNat ≤ 240)
    && (m.kind == 1 || m.status == 0) && (m.kind != 2 || m.tag == 0)

/-- GON_MB_CMD.post (R495). -/
def mbPost (s : State) : State :=
  let res (r : Nat) (s : State) : State := s.modGon (fun g => { g with postResult := r })
  if 8 ≤ (s.mbAt 0).inQ.length then raise (srcGlobal 60) (res 1 s)
  else if !headerOk s.mbIn then res 2 s
  else mbPut 0 s.mbIn (res 0 s)

/-- An outbound message of mailbox `m` leaves (R486, R495). -/
def mbPop (m : Nat) (s : State) : State :=
  let n := (s.mbAt m).outQ.length
  let s := s.modMb m (fun b => { b with outQ := b.outQ.drop 1 })
  if n = 4 then deliver (2209 + m) s else s

/-- GON_MB_CMD (R495): pop, then post. -/
def mbCommand (v : Nat) (s : State) : State :=
  let s := if Nat.testBit v 1 then mbPop 0 s else s
  if Nat.testBit v 0 then mbPost s else s

/-- A write of GON_LOCKn (R487, R541): 0 by the holder releases the lock. -/
def writeLock (o : Origin) (n v : Nat) (s : State) : State :=
  if v = 0 && (s.gon.lock.get {} n).holder == some o then s.modLock n (fun l => { l with holder := none }) else s

/-- A PATCH entry (R413, R504, R524). -/
def patchEntry (o : Origin) (u a : Nat) : LogReq := { kind := 0x0F, origin := o, target := u, a := a }

/-- A PATCH entry's address (R504, R524). -/
def UnitSt.logged (x : UnitSt) : Nat := if !x.enable then 0xFFFFFFFF else if x.brk then 0xFFFFFFFE else x.flash.toNat

/-- Set patch unit `u`; one that becomes enabled or disabled writes its PATCH entry (R504). -/
def setUnit (o : Origin) (u : Nat) (x : UnitSt) (s : State) : State :=
  if (s.unitAt u).enable = x.enable then s.modUnit u (fun _ => x)
  else withEntry (patchEntry o u x.logged) (fun s => s.modUnit u (fun _ => x)) s

/-- A unit from its register word (R541). -/
def unitOf (v : Nat) : UnitSt :=
  { enable := Nat.testBit v 31, brk := Nat.testBit v 30, mask := BitVec.ofNat 4 (v / 2 ^ 26), all := Nat.testBit v 25,
    flash := BitVec.ofNat 25 v }

/-- SPL_CMD word 0 (R549). -/
def splCommand (v : Nat) (s : State) : State :=
  let k := v / 2 ^ 16 % 1024
  let q := (s.reg 0x500008).toNat + 2 ^ 32 * (s.reg 0x50000C).toNat
  match v % 4 with
  | 1 => splPreload k q (s.reg 0x500004).toNat s
  | 2 => splRelease k q s
  | 3 => storeRelease k q s
  | _ => s

/-- The direct fields of a word take the value written (R400). -/
def storeDirect (a v : Nat) (s : State) : State :=
  s.setReg a (masked (s.reg a) (BitVec.ofNat 32 v) (BitVec.ofNat 32 (diMask a)))

/-- What an accepted direct write does. -/
def writeEffect (o : Origin) (a v : Nat) (s : State) : State :=
  if a = 0x20 then imageStart o v s
  else if a = 0x60 then resetCommand o v s
  else if a = 0x10110 then schedCommand o v s
  else if a = 0x20800 then ackSource o v s
  else if a = 0x20840 then popRecord v s
  else if a = 0x20858 then
    (if v < 2 ^ 31 then { s with flt := { s.flt with resetCause := s.flt.resetCause &&& BitVec.ofNat 96 (2 ^ 95 - 1) } } else s)
  else if a = 0x30020 then logFetch (storeDirect a v s)
  else if a = 0x50000 then muxRequest v s
  else if a = 0x60010 then keyOp o (v % 8) (v / 2 ^ 16 % 256) (v / 2 ^ 8 % 16) s
  else if words a 0x60040 40 then s.setReg a (BitVec.ofNat 32 v)
  else if a = 0x60408 then memCommand o v s
  else if a = 0x70010 then restartWdt v s
  else if a = 0x70040 then mbCommand v s
  else if words a 0x70400 16 then writeLock o ((a - 0x70400) / 4) v s
  else if a = 0x70800 + 4 * 281 then storeDirect a ((v &&& 0xFFF0FFFF) + 0x10000) s
  else if words a 0x71000 64 then setUnit o ((a - 0x71000) / 4) (unitOf v) s
  else if a = 0x500000 then splCommand v (storeDirect a v s)
  else
    let s := storeDirect a v s
    match laneOfAddr a with
    | some l => if a % 0x4000 = 0x50 then wskStart (v % 4) l (BitVec.ofNat 64 (v + 2 ^ 32 * s.bits (a + 4) 15 0)) s else s
    | none => s

/-! ### The write -/

/-- How a register write ends. -/
inductive WrRes where
  | ok | refused | noLog
deriving DecidableEq, Repr

/-- The Logbook refused the entry of a write: of an operation it reports a result of its own (R59, R434, R459). -/
def entryRefused (a v : Nat) (s : State) : State :=
  let s := logRefused s
  if a = 0x10110 ∧ (v / 2 ^ 16 % 4 = 1 ∨ v / 2 ^ 16 % 4 = 2) then schedResult 5 s
  else if a = 0x60 then resetDone 5 s
  else if a = 0x60010 then keyDone 8 s
  else s

/-- A direct write of a register word by an origin (R400, R488, R526): refused and counted, or accepted with its REG_WRITE entry
(R414, R491). A staging command is recorded by its operation's own entry alone (R401). -/
def directWrite (o : Origin) (mb : Bool) (a v : Nat) (s : State) : WrRes × State :=
  if s.fatalRefuses o then (.refused, refuseWrite o a v 0 s)
  else if o = .debug ∧ a = 0x60010 then (.refused, keyDone 8 (refuseWrite o a v 0 s))
  else if s.writeRefused o mb a v then (.refused, refuseWrite o a v 0 s)
  else if a = 0x3C then
    if v % 4 = 1 ∨ v % 4 = 2 then
      let s := stageCommand o v s
      (if s.stg.result = 0 then .ok else if s.stg.result = 4 then .noLog else .refused, s)
    else (.ok, s)
  else match s.commit { kind := 0x01, origin := o, target := a, a := v } with
    | none => (.noLog, entryRefused a v s)
    | some s => (.ok, writeEffect o a v s)

/-- The outcome of a command that is a direct write: none in power-on reset. -/
def regCmd (o : Origin) (a v : Nat) : State → Host.Outcome State Fault Refusal := done (fun s =>
  if s.unclocked then s else (directWrite o false a v s).2)

/-- REGISTER_WRITE (R400). -/
def execRegisterWrite (o : Origin) (addr value : Word) := regCmd o addr.toNat value.toNat

/-- LOG_READ (R416): a write of LOG_READ_SEQ bits [31:0]. -/
def execLogRead (o : Origin) (value : Word) := regCmd o 0x30020 value.toNat

/-- FAULT_ACK (R359). -/
def execFaultAck (o : Origin) (value : Word) := regCmd o 0x20800 value.toNat

/-- FAULT_RECORD_POP (R360). -/
def execFaultRecordPop (o : Origin) (value : Word) := regCmd o 0x20840 value.toNat

/-- CLOCK_SWITCH_REQUEST (R429). -/
def execClockSwitchRequest (o : Origin) (value : Word) := regCmd o 0x50000 value.toNat

/-- IMAGE_UPDATE_START (R397). -/
def execImageUpdateStart (t : Nat) (o : Origin) (value : Word) := done (fun s =>
  if s.unclocked then s else (directWrite o false 0x20 value.toNat (s.at t)).2)

/-- A write of GLB_RESET_CMD with a level (R434). -/
def resetCmd (t : Nat) (o : Origin) (level : Nat) (value : Word) : State → Host.Outcome State Fault Refusal := done (fun s =>
  let v := value.toNat
  if s.unclocked then s else (directWrite o false 0x60 (v / 2 ^ 19 * 2 ^ 19 + level * 2 ^ 16 + v % 2 ^ 16) (s.at t)).2)

/-- RESET_DEVICE (R434). -/
def execResetDevice (t : Nat) (o : Origin) (value : Word) := resetCmd t o 1 value
/-- RESET_GONDOLA (R434, R501). -/
def execResetGondola (t : Nat) (o : Origin) (value : Word) := resetCmd t o 2 value
/-- RESET_PATH (R183, R434). -/
def execResetPath (t : Nat) (o : Origin) (value : Word) := resetCmd t o 3 value
/-- RESET_DOMAIN (R434). -/
def execResetDomain (t : Nat) (o : Origin) (value : Word) := resetCmd t o 4 value

/-- A write of ENV_KEY_CMD (R459). -/
def keyCmd (o : Origin) (op index slot : Nat) : State → Host.Outcome State Fault Refusal :=
  regCmd o 0x60010 (op + 2 ^ 8 * slot + 2 ^ 16 * index)

/-- KEY_LOAD (R459). -/
def execKeyLoad (o : Origin) (index : Fin 256) := keyCmd o 1 index.val 0
/-- KEY_GENERATE (R459). -/
def execKeyGenerate (o : Origin) (index : Fin 256) := keyCmd o 2 index.val 0
/-- KEY_BIND (R459). -/
def execKeyBind (o : Origin) (index : Fin 256) (slot : Fin 16) := keyCmd o 3 index.val slot.val
/-- KEY_UNBIND (R459). -/
def execKeyUnbind (o : Origin) (slot : Fin 16) := keyCmd o 4 0 slot.val
/-- KEY_CLEAR (R459). -/
def execKeyClear (o : Origin) (index : Fin 256) := keyCmd o 5 index.val 0

/-- WATCHDOG_RESTART (R483): a write of GON_WDT. -/
def execWatchdogRestart (o : Origin) (value : Word) := regCmd o 0x70010 value.toNat

/-- LOCK_ACQUIRE (R487): a read of GON_LOCKn. -/
def execLockAcquire (t : Nat) (o : Origin) (n : Fin 16) := done (fun s =>
  if s.unclocked then s else (readWord o false (0x70400 + 4 * n.val) (s.at t)).2)

/-- LOCK_RELEASE (R487): a write of GON_LOCKn. -/
def execLockRelease (o : Origin) (n : Fin 16) (value : Word) := regCmd o (0x70400 + 4 * n.val) value.toNat

/-- LOCK_TIMEOUT (R378, R487): a lock held for more than 1 ms is force-released. -/
def execLockTimeout (t : Nat) (n : Fin 16) := live (fun s =>
  let s := s.at t
  let l := s.gon.lock.get {} n.val
  if l.holder.isSome && decide (l.since + ms < s.now) then raise (srcGlobal 58) (forceRelease n.val s) else s)

end Sys2Proof.Machine
end

