-- ==== Sys2Proof/Machine/Gondola.lean ====
section
/-! DEFINITION. Gondola: the start of device firmware (R280, R394, R436, R441, R461, R466, R499), its memories' errors (R480, R506),
watchdogs, the quiet detector and core timers (R483-R486), mailbox 0 (R495) and the services of device firmware (R496-R505). -/

namespace Sys2Proof.Machine

/-! ### Restarts -/

/-- The mailboxes that exist (R494). -/
def State.mailboxes (s : State) : List Nat := 0 :: ((List.range 32).filter (fun n => (s.linkPath n).isSome)).map (1 + ·)

/-- RESTARTED on every mailbox that exists (R496, R499). -/
def restarted (s : State) : State :=
  let s := s.modGon (fun g => { g with restarts := (g.restarts + 1) % 2 ^ 32 })
  let m := fwMsg 0x7F 2 0 0 (bytesOf 4 s.gon.restarts ++ bytesOf 1 s.gon.cause)
  each s.mailboxes (fun n s => mbSend n m s) s

/-! ### The start of device firmware -/

/-- The fuse source of a word (R441). -/
def fuseSource (w : Nat) : Nat := srcGlobal (if w < 80 then 43 else if w < 152 then 44 else 45)

/-- A fuse source is raised for a marginal word (R441). Of several words of a kind each has its record; at one instant they escalate
nothing (R384; log entry 152, DEDUCED). -/
def raiseFuse (src : Nat) (s : State) : State :=
  let x := s.srcAt src
  if x.st = 2 && x.raisedAt == some s.now then overflowCheck s (s.record src x.cls 0 false 0 0 0) else raise src s

/-- The fuse sources are raised, once for each marginal word (R441). -/
def raiseFuses (s : State) : State :=
  each ((List.range 204).filter (fun w => Nat.testBit s.pwr.fuseMarg.toNat w)) (fun w s => raiseFuse (fuseSource w) s) s

/-- A stream takes what the power-on scan found (R280). The journal gives no released store position (R276): it is a free value
up to the position found. -/
def scanStream (r : StreamNo × Nat × Nat) (s : State) : State :=
  let k := r.1.val
  if !(s.stEn k && s.stDrain k) then s else
  let v := s.free
  v.2.modStrm k (fun x => { x with
    accepted := r.2.1, durable := r.2.1, snapAcc := r.2.1, next := r.2.1 + 1, storeIdx := r.2.2, storeRel := v.1 % (r.2.2 + 1) })

/-- The counter of the key record at index `i` resumes at its mark, or the record is not used for sealing (R466, R474). -/
def scanCounter (scan : ScanResult) (i : Nat) (s : State) : State :=
  let e := s.keyAt i
  if !e.usable || e.kind != 1 then s else
  match scan.marks.find? (fun m => m.1 == e.keyId) with
  | some m => s.modKey i (fun e => { e with counter := m.2.toNat, mark := m.2.toNat })
  | none =>
    if scan.sealed.contains e.keyId then
      let s := (s.modKey i (fun e => { e with sealRefused := true })).logEvent
        (keyEntry .hardware 0x0C i (e.slot.getD 0) e.keyId.toNat 0)
      raiseD (srcGlobal 51) 2 s
    else s

/-- The power-on scan of the store (R280, R466). -/
def powerScan (scan : ScanResult) (s : State) : State :=
  let s := scan.streams.foldl (fun s r => scanStream r s) s
  let s := each ((List.range 1024).filter s.stEn) (fun k s => s.modStrm k (fun x => { x with nextFlags := x.nextFlags ||| 8 })) s
  let s := each (s.env.key.entries.map (·.1)) (scanCounter scan) s
  s.modSpl (fun x => { x with ready := true })

/-- A path's bring-up after a power-on or device reset (R112, R394); one that is held waits for its safe state's end. -/
def startPath (n : Nat) (s : State) : State :=
  if (s.pathAt n).safe then s.modPath n (fun p => { p with upPend := true }) else bringUp .hardware 4 n s

/-- The store lanes S00 to S15: they leave reset into Run, and train as a root port (R104, R111). That they do so with the
bring-up of the paths is DEDUCED (notes/assumptions/145.md). -/
def startStore (s : State) : State :=
  let ls := (List.range 16).map (128 + ·)
  transmit ls (each ls (laneTo .run) s)

/-- Steps 9 and 10 of R436. -/
def bootDevice (scan : ScanResult) (s : State) : State :=
  let s := raiseFuses s
  let s := s.modPwr (fun p => { p with avsRun := true, avsFail := 0 })
  let s := restoreKeys s
  let s := if s.spl.ready then resumeSpool s else powerScan scan s
  let s := stepsDone [9, 10] s
  each (paths.filter s.pathEn) startPath (startStore s)

/-- FIRMWARE_START (R394, R436, R499, R501): after an image load or a Gondola reset; not while C0 is halted on start (R522). -/
def execFirmwareStart (t : Nat) (scan : ScanResult) := live (fun s =>
  let s := s.at t
  if !s.stepDone 8 || s.gon.fwReady || (s.coreAt 0).halted || (s.domAt 201).inReset then s else
  let s := if s.stepDone 9 || s.pwr.fatal then s else bootDevice scan s
  restarted (s.modGon (fun g => { g with fwReady := true })))

/-! ### Memories, cores and events -/

/-- The code RAM address that a flash address names (R502). -/
def State.codeAddr (s : State) (fa : Nat) : Option Nat :=
  (s.gon.img.flash.find? (fun f => decide (f.2.1 ≤ fa) && decide (fa < f.2.1 + f.2.2))).map (fun f => f.1 + (fa - f.2.1))

/-- An enabled unit in patch mode covers the code RAM word at an address (R502). -/
def State.covered (s : State) (a : Nat) : Bool :=
  s.gon.unit.entries.any (fun u => u.2.enable && !u.2.brk && s.codeAddr u.2.flash.toNat == some a)

/-- Units in patch mode that are enabled. -/
def State.patchUnits (s : State) : List Nat := (List.range 64).filter (fun u => (s.unitAt u).enable && !(s.unitAt u).brk)

/-- Units in breakpoint mode that are enabled. -/
def State.breakUnits (s : State) : List Nat := (List.range 64).filter (fun u => (s.unitAt u).enable && (s.unitAt u).brk)

/-- The firmware version returns to the image's patch level (R504, R506). -/
def imageLevel (s : State) : State := s.modTrn (fun t => { t with fwVersion := s.gon.imgVersion })

/-- An uncorrectable error in patch RAM or in a patch unit (R506): every unit in patch mode is disabled at once. -/
def patchFail (s : State) : State :=
  let us := s.patchUnits
  let s := each us (fun u s => (s.modUnit u (fun _ => {})).logEvent (patchEntry .hardware u 0xFFFFFFFF)) s
  raise (srcGlobal 59) (imageLevel s)

/-- GON_PATCH (R506). -/
def execGonPatch := live patchFail

/-- The code of a memory in GON_ECC_STATUS (R541). -/
def memCode : GonMem → Nat
  | .l1i _ => 0
  | .l1dClean _ | .l1dDirty .. => 1
  | .l2Clean | .l2Dirty _ => 2
  | .codeRam .. => 3
  | .dataRam .. => 4
  | .bootRom => 5
  | .patchRam => 6

/-- A word of data RAM, or the dirty line that stands for it in a coherent cache, is poison (R365, R480, R481). -/
def poisonData (w : Nat) (s : State) : State := s.modGon (fun g => { g with dataPoison := g.dataPoison.set false (32 * w) true })

/-- GON_ECC (R480): a corrected word in a Gondola memory is counted with its memory and address; an uncorrectable one acts as the
memory's row gives. The caches are coherent (R481) and hold copies: a clean line is fetched again, and leaves no trace. -/
def execGonEcc (err : GonErr) := live (fun s =>
  if err.corrected then
    s.modGon (fun g => { g with eccMem := memCode err.mem, eccCount := satAdd 65535 g.eccCount 1, eccAddr := err.addr }) else
  match err.mem with
  | .codeRam w fetch =>
    let s := raise (srcGlobal 56) (s.modGon (fun g => { g with codePoison := g.codePoison.set false (32 * w) true }))
    (match fetch with
     | some c => if s.covered (32 * w) then s else coreReset c.val s
     | none => s)
  | .dataRam w reader =>
    let s := raise (srcGlobal 56) (poisonData w s)
    (match reader with
     | some c => coreReset c.val s
     | none => s)
  | .bootRom =>
    let s := detect (srcGlobal 56) (some 2) true [] 0 s
    if s.stepDone 8 then s else stepsDone [8] (noImage true s)
  | .l1dDirty _ w | .l2Dirty w => raise (srcGlobal 56) (poisonData w s)
  | .patchRam => patchFail s
  | .l1i _ | .l1dClean _ | .l2Clean => raise (srcGlobal 56) s)

/-- WATCHDOG_EXPIRY (R483): 10 ms without a restart, or a double fault. The watchdog of a halted core stands still (R519). -/
def execWatchdogExpiry (t : Nat) (core : Fin 4) (doubleFault : Bool) := live (fun s =>
  let s := s.at t
  let x := s.coreAt core.val
  if !x.halted && (doubleFault || decide (x.wdt + 10 * ms ≤ s.now)) then coreReset core.val s else s)

/-- QUIET_DETECT (R484): no core is halted, and all four are in WAIT. -/
def execQuietDetect (t : Nat) := live (fun s =>
  let s := s.at t
  if [0, 1, 2, 3].any (fun c => (s.coreAt c).halted) then s else
  let s := each [0, 1, 2, 3] (fun c s => s.modCore c (fun x => { x with waiting := true })) s
  deliver 2252 (raise (srcGlobal 57) s))

/-- CORE_TIMER (R486, R519): the timer of a core that is not halted. -/
def execCoreTimer (core : Fin 4) := live (fun s => if (s.coreAt core.val).halted then s else deliver (2246 + core.val) s)

/-! ### Mailbox 0 -/

/-- The management interface serves the bus (R493, R501). -/
def State.mgmtUp (s : State) : Bool :=
  s.gon.fwReady && s.mgmtMode != 3 && !s.gon.mgmt.stuck && !(s.domAt 204).inReset && !s.inReset && !s.pwr.clkLost

/-- MAILBOX_POST (R495): a write of 1 to GON_MB_CMD.post over the management bus, which is not acknowledged while device firmware
has not started (R501, R507). -/
def execMailboxPost (t : Nat) := live (fun s =>
  let s := s.at t
  if s.mgmtUp then (directWrite .mgmt false 0x70040 1 s).2 else s)

/-- MAILBOX_POP (R495). -/
def execMailboxPop (t : Nat) := live (fun s =>
  let s := s.at t
  if s.mgmtUp then (directWrite .mgmt false 0x70040 2 s).2 else s)

/-! ### Services -/

/-- The origin of the requests of mailbox `m` (R498). -/
def mbOrigin (m : Nat) : Origin := if m = 0 then .mgmt else .ctrlFlit (Fin.ofNat 32 (m - 1))

/-- Device firmware serves the request at the front of mailbox `m` (R497-R499): once it has started, and while the outbound queue
has room. A message that is no request, or whose service R496 does not name, is answered with status 1; one of another service
than `want` waits for its own row, and every request waits while one of its mailbox is in progress. -/
def serve (t m : Nat) (msg : MbMsg) (want : Nat) (f : State → State) : State → Host.Outcome State Fault Refusal := live (fun s =>
  let s := s.at t
  let b := s.mbAt m
  if !s.gon.fwReady || b.inQ.head? != some msg || 8 ≤ b.outQ.length || s.gon.muxAsk.any (fun a => a.1 == m) then s else
  let sv := msg.service.toNat
  let take (s : State) : State := s.modMb m (fun b => { b with inQ := b.inQ.drop 1 })
  if msg.kind ≠ 0 ∨ sv = 0 ∨ 7 < sv then respond m msg 1 [] (take s)
  else if sv ≠ want then s
  else f (take s))

/-- The valid body bytes of a message. -/
def bodyOf (m : MbMsg) : List Byte := m.body.take m.length.toNat

/-- Read words for an origin, in order (R527). -/
def readWords (o : Origin) (mb : Bool) : List Nat → State → List Word × State
  | [], s => ([], s)
  | a :: l, s =>
    let r := readWord o mb a s
    let q := readWords o mb l r.2
    (r.1 :: q.1, q.2)

/-- REG_READ (R496). The locks are not a mailbox's to read (R488). -/
def execRegRead (t : Nat) (m : MbNo) (msg : MbMsg) := serve t m.val msg 1 (fun s =>
  let b := bodyOf msg
  let a := field b 0 4
  let cnt := field b 4 1
  if b.length < 5 ∨ a % 4 ≠ 0 ∨ cnt = 0 ∨ 60 < cnt then respond m.val msg 2 [] s
  else
    let as := (List.range cnt).map (fun i => a + 4 * i)
    if as.any (fun a => words a 0x70400 16) then respond m.val msg 3 [] s
    else
      let r := readWords (mbOrigin m.val) true as s
      respond m.val msg 0 (r.1.flatMap (fun w => bytesOf 4 w.toNat)) r.2)

/-- The entries of a REG_WRITE request as masked writes in order: which were refused, and whether the Logbook accepted all (R496). -/
def writeEntries (o : Origin) : List (Nat × Nat × Nat) → Nat → State → Nat × Bool × State
  | [], _, s => (0, true, s)
  | (a, v, k) :: l, i, s =>
    let w := masked (s.word a) (BitVec.ofNat 32 v) (BitVec.ofNat 32 k)
    let r := directWrite o true a w.toNat s
    let q := writeEntries o l (i + 1) r.2
    (q.1 + (if r.1 = .ok then 0 else 2 ^ i), q.2.1 && r.1 != .noLog, q.2.2)

/-- REG_WRITE (R496, R497). -/
def execRegWrite (t : Nat) (m : MbNo) (msg : MbMsg) := serve t m.val msg 2 (fun s =>
  let b := bodyOf msg
  if b.length % 12 ≠ 0 then respond m.val msg 2 [] s
  else
    let es := (List.range (b.length / 12)).map (fun i => (field b (12 * i) 4, field b (12 * i + 4) 4, field b (12 * i + 8) 4))
    let r := writeEntries (mbOrigin m.val) es 0 s
    respond m.val msg (if !r.2.1 then 5 else if r.1 ≠ 0 then 3 else 0) (bytesOf 3 r.1) r.2.2)

/-- IMAGE_DATA (R398, R496): a chunk at the next expected offset of a running update is written and read back. -/
def execImageData (t : Nat) (m : MbNo) (msg : MbMsg) (readback : Bool) (busError : Bool) := serve t m.val msg 3 (fun s =>
  let b := bodyOf msg
  let off := field b 0 4
  if b.length < 8 ∨ off % 8 ≠ 0 ∨ field b 4 4 ≠ 0 then respond m.val msg 2 [] s
  else if !s.gon.upd.running || off != s.gon.upd.next then respond m.val msg 6 (bytesOf 4 s.gon.upd.next) s
  else
    let s := updateBytes (b.drop 8) readback busError s
    let u := s.gon.upd
    respond m.val msg (if u.running || u.result == 0 then 0 else 6) (bytesOf 4 u.next) s)

/-- The checks that device firmware makes before it requests a switch (R429). -/
def State.switchSafe (s : State) (d i : Nat) : Bool :=
  let x := s.domStatus d
  (i == 0 || Nat.testBit x 3) && Nat.testBit x 7 && Nat.testBit x 8

/-- CLOCK_SWITCH (R429, R496): status 4 while another mailbox's is in progress (R497); a switch that does not complete at once is
answered when it ends. -/
def execClockSwitch (t : Nat) (m : MbNo) (msg : MbMsg) := serve t m.val msg 4 (fun s =>
  let b := bodyOf msg
  let d := field b 0 2
  let i := field b 2 1
  let o := mbOrigin m.val
  if b.length < 3 then respond m.val msg 2 [] s
  else if s.gon.muxAsk.isSome then respond m.val msg 4 [] s
  else if s.pwr.fatal then respond m.val msg 3 [1] s
  else if 206 ≤ d ∨ 3 < i then respond m.val msg 6 [1] s
  else if (s.domAt d).inReset then respond m.val msg 6 [2] (s.modGon (fun g => { g with muxResult := 2 }))
  else if !s.switchSafe d i then respond m.val msg 6 [1] s
  else
    let v := i + 2 ^ 8 * d
    match s.commit { kind := 0x01, origin := o, target := 0x50000, a := v } with
    | none => respond m.val msg 5 [] (logRefused s)
    | some s =>
      let s := muxRequest v s
      if s.gon.muxResult = 0 ∧ (s.domAt d).switching = some i then s.modGon (fun g => { g with muxAsk := some (m.val, d, msg) }) else
      respond m.val msg (if s.gon.muxResult = 0 then 0 else 6) (bytesOf 1 s.gon.muxResult) s)

/-- HBM_RETIRE (R289, R496). -/
def execHbmRetire (t : Nat) (m : MbNo) (msg : MbMsg) := serve t m.val msg 5 (fun s =>
  let b := bodyOf msg
  let h := field b 0 1
  let c := field b 1 1
  if b.length < 2 ∨ 3 < h ∨ 29 < c then respond m.val msg 2 [] s
  else if s.pwr.fatal then respond m.val msg 3 [] s
  else if (s.hbmAt h).unmapped.getLsbD c then respond m.val msg 6 [] s
  else respond m.val msg 0 [] (retireChannel h c s))

/-- VERSION (R496). -/
def execVersion (t : Nat) (m : MbNo) (msg : MbMsg) := serve t m.val msg 7 (fun s =>
  respond m.val msg 0 (bytesOf 4 s.trn.fwVersion.toNat ++ bytesOf 4 s.gon.img.gRun.toNat ++ bytesOf 4 s.gon.restarts
    ++ bytesOf 1 s.patchUnits.length ++ bytesOf 1 s.breakUnits.length) s)

/-! ### Live patching -/

/-- The answer to a PATCH request with a result of R505. -/
def patchAnswer (m : Nat) (msg : MbMsg) (r : Nat) (s : State) : State :=
  respond m msg (if r = 0 then 0 else if r = 6 then 5 else 6) (bytesOf 1 r) s

/-- A PATCH request of an op (R504); a request with an op that R504 does not name is malformed. -/
def servePatch (t m : Nat) (msg : MbMsg) (op : Nat) (f : List Byte → State → State) : State → Host.Outcome State Fault Refusal :=
  live (fun s =>
    let b := bodyOf msg
    let k := field b 0 1
    let other := (k == 1 || k == 2 || k == 3) && k != op && !b.isEmpty && msg.kind == 0
    if msg.service = 6 ∧ other then s.at t
    else
      let bad := b.isEmpty || k != op || (op != 3 && decide (b.length < 8))
      match serve t m msg 6 (fun s => if bad then respond m msg 2 [] s else f b s) s with
      | .next s => s
      | _ => s)

/-- The largest package (R503). -/
def packageMax : Nat := 16 + 36 * 64 + 96

/-- PATCH CHUNK (R504): at offset 0 a package begins; every other chunk continues it without a gap. -/
def execPatchChunk (t : Nat) (m : MbNo) (msg : MbMsg) := servePatch t m.val msg 1 (fun b s =>
  let off := field b 4 4
  let have_ := s.gon.pkg.length
  if off ≠ 0 ∧ off ≠ have_ then patchAnswer m.val msg 5 s
  else if packageMax < off + (b.length - 8) then patchAnswer m.val msg 5 s
  else patchAnswer m.val msg 0 (s.modGon (fun g => { g with pkg := g.pkg.take off ++ b.drop 8 })))

/-- The entries of a package: flash address and word (R503). -/
def packageEntries (p : List Byte) : List (Nat × List Byte) :=
  (List.range (field p 14 2)).map (fun i => (field p (16 + 36 * i) 4, (p.drop (20 + 36 * i)).take 32))

/-- A flash address is that of a 32-byte-aligned code RAM word (R502, R505). -/
def State.flashOk (s : State) (fa : Nat) : Bool :=
  match s.codeAddr fa with
  | none => false
  | some a => a % 32 == 0 && decide (a < 2 ^ 23)

/-- No address appears twice. -/
def noRepeat : List Nat → Bool
  | [] => true
  | x :: l => !l.contains x && noRepeat l

/-- The units that a COMMIT may load, in ascending order (R504). -/
def State.freeUnits (s : State) : List Nat := (List.range 64).filter (fun u => !((s.unitAt u).enable && (s.unitAt u).brk))

/-- The result of a COMMIT before its entries (R503, R505). -/
def State.commitResult (s : State) (len : Nat) : Nat :=
  let p := s.gon.pkg
  let n := field p 14 2
  let as := (packageEntries p).map (·.1)
  if p.length ≠ len ∨ n = 0 ∨ 64 < n ∨ len ≠ 112 + 36 * n then 5
  else if field p 0 4 ≠ 0x575A5054 ∨ field p 12 2 = 0 ∨ !Config.signatureOk p then 1
  else if field p 4 4 ≠ s.trn.fwVersion.toNat ∨ field p 8 4 ≠ s.gon.img.gRun.toNat then 2
  else if s.freeUnits.length < n then 3
  else if !(as.all s.flashOk && noRepeat as) then 4
  else 0

/-- Disable the units in patch mode and load a package's words, all with their PATCH entries (R504); none when the Logbook has no
room for all of them. -/
def loadPatches (o : Origin) (es : List (Nat × List Byte)) (s : State) : Option State :=
  let off := s.patchUnits
  let on := s.freeUnits.zip es
  let reqs := off.map (fun u => patchEntry o u 0xFFFFFFFF) ++ on.map (fun x => patchEntry o x.1 x.2.1)
  if !s.roomFor reqs then none else
  let s := each off (fun u s => s.modUnit u (fun _ => {})) s
  let s := on.foldl (fun s x =>
    let s := s.modUnit x.1 (fun _ => { enable := true, flash := BitVec.ofNat 25 x.2.1 })
    each (List.range 32) (fun i s => s.modGon (fun g => { g with patch := g.patch.set 0 (32 * x.1 + i) (x.2.2.getD i 0) })) s) s
  some (reqs.foldl State.logPut s)

/-- PATCH COMMIT (R503-R505). -/
def execPatchCommit (t : Nat) (m : MbNo) (msg : MbMsg) := servePatch t m.val msg 2 (fun b s =>
  let r := s.commitResult (field b 4 4)
  if r ≠ 0 then patchAnswer m.val msg r s
  else
    let level := field s.gon.pkg 12 2
    match loadPatches (mbOrigin m.val) (packageEntries s.gon.pkg) s with
    | none => patchAnswer m.val msg 6 (logRefused s)
    | some s => patchAnswer m.val msg 0 (s.modTrn (fun t => { t with
        fwVersion := BitVec.ofNat 32 (t.fwVersion.toNat / 2 ^ 16 * 2 ^ 16 + level) })))

/-- PATCH CLEAR (R504). -/
def execPatchClear (t : Nat) (m : MbNo) (msg : MbMsg) := servePatch t m.val msg 3 (fun _ s =>
  match loadPatches (mbOrigin m.val) [] s with
  | none => patchAnswer m.val msg 6 (logRefused s)
  | some s => patchAnswer m.val msg 0 (imageLevel s))

end Sys2Proof.Machine
end

