-- ==== Sys2Proof/Machine/Mgmt.lean ====
section
/-! DEFINITION. The management bus: its transfers, the I3C commands, in-band interrupts and stuck lines (R489-R493, R500). -/

namespace Sys2Proof.Machine

/-- Change the management interface. -/
def State.modMgmt (s : State) (f : MgmtSt → MgmtSt) : State := s.modGon (fun g => { g with mgmt := f g.mgmt })

/-- The device acknowledges or not, with the bytes that it returns. -/
def mgmtAnswer (ok : Bool) (bs : List Byte) (s : State) : State := s.modMgmt (fun m => { m with acked := ok, answer := bs })

/-- A discarded transfer or a stuck line: counted, and mgmt_line is raised (R490, R491, R493). `event`: nothing lasts. -/
def mgmtError (event : Bool) (s : State) : State :=
  detect (srcGlobal 61) none event [] 0 (s.modMgmt (fun m => { m with busErr := satAdd 255 m.busErr 1 }))

/-- The bus is in an SMBus mode (R385, R489, R490). -/
def State.smbus (s : State) : Bool := s.mgmtMode == 1 || s.mgmtMode == 2

/-- The static address 0x58 + a (R489). -/
def State.mgmtAddress (s : State) : Nat := 0x58 + s.pwr.strap.toNat / 2 ^ 10 % 16

/-- The PEC of a transfer is as its mode asks (R490); in I3C mode there is none. -/
def State.pecOk (s : State) (pec : Option Bool) : Bool :=
  match s.mgmtMode, pec with
  | 1, some ok => ok
  | 1, none => true
  | 2, some ok => ok
  | 2, none => false
  | _, _ => true

/-- The outcome of a transfer (R490, R491, R501): not acknowledged while the interface is not up; discarded with mgmt_line where
it is malformed or its PEC fails; else `f`. -/
def transfer (pec : Option Bool) (good : State → Bool) (f : State → State) : State → Host.Outcome State Fault Refusal := live (fun s =>
  if !s.mgmtUp then mgmtAnswer false [] s
  else if !(s.pecOk pec && good s) then mgmtError true (mgmtAnswer true [] s)
  else (f (s.modMgmt (fun m => { m with busy := true }))).modMgmt (fun m => { m with busy := false }))

/-- What a read returns: in SMBus its byte count, the data, and the PEC when the controller reads it (R42, R490, R491); in I3C the
data. -/
def State.returned (s : State) (cmd : Nat) (pec : Option Bool) (data : List Byte) : List Byte :=
  if !s.smbus then data else
  let a := 2 * s.mgmtAddress
  let body := BitVec.ofNat 8 data.length :: data
  let all : List Byte := [BitVec.ofNat 8 a, BitVec.ofNat 8 cmd, BitVec.ofNat 8 (a + 1)] ++ body
  if pec.isSome then body ++ [BitVec.ofNat 8 (crc8 (unpackBits all))] else body

/-! ### The read-ahead -/

/-- A lock: reading it takes it (R487). -/
def isLock (a : Nat) : Bool := words a 0x70400 16 && a % 4 == 0

/-- The register `i` places after the address is fetched into the read-ahead (R492); a lock is left until it is sent. -/
def fetchAhead (i : Nat) (s : State) : State :=
  let a := (s.gon.mgmt.addr.toNat + 4 * i) % 2 ^ 32
  if isLock a then s.modMgmt (fun m => { m with ahead := m.ahead ++ [none] })
  else
    let r := readWord .mgmt false a s
    r.2.modMgmt (fun m => { m with ahead := m.ahead ++ [some r.1] })

/-- The read-ahead is filled from the address (R492). -/
def fillAhead (s : State) : State := each [0, 1, 2, 3] fetchAhead (s.modMgmt (fun m => { m with ahead := [] }))

/-- The next register is sent, the address advances and the read-ahead is refilled (R491, R492). -/
def sendNext (s : State) : Word × State :=
  let a := s.gon.mgmt.addr
  let r : Word × State := match s.gon.mgmt.ahead.head?.getD none with
    | some w => (w, s)
    | none => readWord .mgmt false a.toNat s
  (r.1, fetchAhead 3 (r.2.modMgmt (fun m => { m with addr := a + 4, ahead := m.ahead.drop 1 })))

/-- Send `n` registers. -/
def sendWords : Nat → State → List Word × State
  | 0, s => ([], s)
  | n + 1, s =>
    let r := sendNext s
    let q := sendWords n r.2
    (r.1 :: q.1, q.2)

/-! ### Transfers -/

/-- MGMT_ADDR (R491, R492). -/
def execMgmtAddr (bytes : List Byte) (pec : Option Bool) :=
  transfer pec (fun _ => decide (bytes.length = 4) && decide (ofBytes bytes % 4 = 0)) (fun s =>
    mgmtAnswer true [] (fillAhead (s.modMgmt (fun m => { m with addr := BitVec.ofNat 32 (ofBytes bytes) }))))

/-- The values of one WRITE in order, each at the address, which then advances (R491); none after a value that reset the
interface. -/
def writeValues : List Nat → State → State
  | [], s => s
  | v :: l, s =>
    if !s.mgmtUp then s else
    let a := s.gon.mgmt.addr
    let s := (directWrite .mgmt false a.toNat v s).2
    writeValues l (if s.mgmtUp then s.modMgmt (fun m => { m with addr := a + 4 }) else s)

/-- MGMT_WRITE (R491). -/
def execMgmtWrite (bytes : List Byte) (pec : Option Bool) :=
  transfer pec (fun _ => decide (4 ≤ bytes.length) && decide (bytes.length ≤ 252) && decide (bytes.length % 4 = 0)) (fun s =>
    let s := writeValues ((List.range (bytes.length / 4)).map (fun i => field bytes (4 * i) 4)) (mgmtAnswer true [] s)
    if s.mgmtUp then fillAhead s else s)

/-- MGMT_READ (R491, R492): in SMBus RLEN bytes, in I3C as many registers as the controller takes; not acknowledged while the
read-ahead holds nothing. -/
def execMgmtRead (pec : Option Bool) (count : Nat) :=
  transfer pec (fun _ => true) (fun s =>
    if s.gon.mgmt.ahead.isEmpty then mgmtAnswer false [] s
    else
      let r := sendWords (if s.smbus then s.gon.mgmt.rlen / 4 else count) s
      mgmtAnswer true (s.returned 0x12 pec (r.1.flatMap (fun w => bytesOf 4 w.toNat))) r.2)

/-- MGMT_STATUS (R491). -/
def execMgmtStatus (pec : Option Bool) :=
  transfer pec (fun _ => true) (fun s => mgmtAnswer true (s.returned 0x13 pec (bytesOf 4 (s.word 0x70024).toNat)) s)

/-- RLEN (R491). -/
def execRlen (bytes : List Byte) (pec : Option Bool) :=
  let v := ofBytes bytes
  transfer pec (fun _ => decide (bytes.length = 1) && decide (4 ≤ v) && decide (v ≤ 252) && decide (v % 4 = 0)) (fun s =>
    mgmtAnswer true [] (s.modMgmt (fun m => { m with rlen := v })))

/-- MGMT_BAD_TRANSFER (R490, R491). -/
def execMgmtBadTransfer := transfer none (fun _ => false) id

/-- ALERT_RESPONSE (R490): answered with the device's address while ALERT_N is low; ALERT_N stays as it is. -/
def execAlertResponse := live (fun s =>
  if s.mgmtUp && s.smbus && s.alertLow then mgmtAnswer true [BitVec.ofNat 8 (2 * s.mgmtAddress)] s else mgmtAnswer false [] s)

/-! ### I3C commands -/

/-- The outcome of a CCC on the I3C bus (R489); in another mode the device answers none. -/
def ccc (f : State → State) : State → Host.Outcome State Fault Refusal := live (fun s =>
  if s.mgmtUp && s.mgmtMode == 0 then f s else mgmtAnswer false [] s)

/-- A device without a dynamic address takes one. -/
def takeAddress (addr : BitVec 7) (bs : List Byte) (s : State) : State :=
  if s.gon.mgmt.dynAddr ≠ 0 then mgmtAnswer false [] s
  else mgmtAnswer true bs (s.modMgmt (fun m => { m with dynAddr := addr }))

/-- The bytes of the provisioned ID. -/
def pidBytes : List Byte := bytesOf 6 Config.i3cPid.toNat

/-- ENTDAA (R489). -/
def execEntdaa (addr : BitVec 7) := ccc (takeAddress addr (pidBytes ++ [0x06, Config.i3cDcr]))

/-- SETDASA (R489). -/
def execSetdasa (addr : BitVec 7) := ccc (takeAddress addr [])

/-- RSTDAA (R489). -/
def execRstdaa := ccc (fun s => mgmtAnswer true [] (s.modMgmt (fun m => { m with dynAddr := 0 })))

/-- ENEC (R489, R500). -/
def execEnec := ccc (fun s => mgmtAnswer true [] (s.modMgmt (fun m => { m with ibi := true })))

/-- DISEC (R489, R500). -/
def execDisec := ccc (fun s => mgmtAnswer true [] (s.modMgmt (fun m => { m with ibi := false, ibiPend := none })))

/-- GETPID (R489). -/
def execGetpid := ccc (fun s => mgmtAnswer true pidBytes s)

/-- GETBCR (R489). -/
def execGetbcr := ccc (fun s => mgmtAnswer true [0x06] s)

/-- GETDCR (R489). -/
def execGetdcr := ccc (fun s => mgmtAnswer true [Config.i3cDcr] s)

/-- GETSTATUS (R489): the two status bytes are free values. -/
def execGetstatus := ccc (fun s =>
  let v := s.free
  mgmtAnswer true (bytesOf 2 (v.1 % 65536)) v.2)

/-- UNSUPPORTED_CCC (R489): not acknowledged. -/
def execUnsupportedCcc (_ : Byte) := ccc (mgmtAnswer false [])

/-! ### Lines and in-band interrupts -/

/-- MGMT_LINE (R354, R493): a line held low for more than 35 ms; in mode 3 the device takes no part in the bus. -/
def execMgmtLine (t : Nat) := live (fun s =>
  let s := s.at t
  if s.mgmtMode = 3 then s
  else mgmtError false (s.modMgmt (fun m => { stuck := true, busErr := m.busErr })))

/-- MGMT_LINES_HIGH (R493): both lines have been high for 50 µs. -/
def execMgmtLinesHigh (t : Nat) := live (fun s =>
  let s := (s.at t).modMgmt (fun m => { m with stuck := false })
  if (s.srcAt (srcGlobal 61)).cond then condEnd (srcGlobal 61) s else s)

/-- IBI_REPEAT (R500): an in-band interrupt that was not accepted is repeated while its condition lasts. -/
def execIbiRepeat (t : Nat) (accepted : Bool) := live (fun s =>
  let s := s.at t
  let lasts := match s.gon.mgmt.ibiPend with
    | none => false
    | some d => if d = 1 then s.alertRecord else s.alertMailbox
  if accepted || !lasts then s.modMgmt (fun m => { m with ibiPend := none }) else s)

end Sys2Proof.Machine
end

