-- ==== Sys2Proof/Machine/Debug.lean ====
section
/-! DEFINITION. The debug wire: frames, the challenge and response of a session, its accesses, run control and breakpoints
(R508-R525). -/

namespace Sys2Proof.Machine

/-! ### Frames -/

/-- The debug domain serves frames: from step 3 of R436, while REFCLK is present (R513). -/
def State.dbgServed (s : State) : Bool := !s.pwr.por && !s.pwr.clkLost

/-- The session's level, 0 with none open (R512). -/
def State.dbgLevel (s : State) : Nat := if s.dbg.isOpen then s.dbg.level else 0

/-- The bit of a write cell in a frame of unit time `T`, by its low (R509). -/
def cellBit (T low : Nat) : Bool := decide (2 * low < T)

/-- The bytes that the write cells of a frame send, most significant bit first (R509, R510). -/
def cellBytes (T : Nat) (lows : List Nat) : List Byte := packBits (lows.length / 8) (lows.map (cellBit T))

/-- Argument words of a command (R512). -/
def dbgArgs : Nat → Option Nat
  | 1 | 2 | 5 | 0x0B | 0x0C => some 1
  | 3 => some 8
  | 4 => some 0
  | 6 | 7 | 9 | 0x0E => some 2
  | 8 | 0x0A => some 10
  | 0x0D => some 3
  | _ => none

/-- The bytes that answer a frame (R510): status, data words, and the CRC-8 over both. -/
def DbgSt.response (d : DbgSt) : List Byte :=
  let bs := d.status :: d.answer.flatMap (fun w => bytesOf 4 w.toNat)
  bs ++ [BitVec.ofNat 8 (crc8 (unpackBits bs))]

/-- The response of a frame (R510). -/
def dbgReply (st : Nat) (ws : List Word) (s : State) : State :=
  s.modDbg (fun d => { d with status := BitVec.ofNat 8 st, answer := ws })

/-- What a debug command asks for (R512, R524): its code and level, the entry's core mask, unit or core, and its first two argument
words. -/
structure DbgReq where
  code : Nat
  level : Nat
  hi : Nat := 0
  a : Nat := 0
  b : Nat := 0

/-- The outcome of a frame that passed its CRC (R511, R512, R524): `bad` arguments and a level too low are refused; the rest is
carried out once its DEBUG entry is committed. `check` answers the status of what the state refuses, 0 for none; `f` is what is
carried out, with its status and data words. -/
def frame (t : Nat) (q : DbgReq) (bad : State → Bool) (check : State → Nat) (f : State → Nat × List Word × State) :
    State → Host.Outcome State Fault Refusal := done (fun s =>
  if !s.dbgServed then s else
  let s := (s.at t).modDbg (fun d => { d with lastFrame := max t s.now, abandoned := false })
  let st := if bad s then 3 else if s.dbgLevel < q.level then 4 else check s
  match s.commit (s.debugEntry q.code (if st = 0 then 1 else st) q.hi q.a q.b) with
  | none => dbgReply 5 [] (logRefused s)
  | some s =>
    if st ≠ 0 then dbgReply st [] s
    else
      let r := f s
      dbgReply r.1 (if r.1 = 0 then r.2.1 else []) r.2.2)

/-- Nothing in the state refuses the command. -/
def noCheck (_ : State) : Nat := 0

/-! ### Cores -/

/-- A core halts (R519): its watchdog stands still. -/
def haltCore (cause unit c : Nat) (s : State) : State :=
  if (s.coreAt c).halted then s
  else s.modCore c (fun x => { x with halted := true, cause := cause, unit := unit, wdt := s.now - x.wdt })

/-- A core runs again (R519): a core in WAIT returns to it unless an event waits; its state words are open again. -/
def resumeCore (c : Nat) (s : State) : State :=
  if !(s.coreAt c).halted then s
  else s.modCore c (fun x => { x with
    halted := false, cause := 0, unit := 0, waiting := x.waiting && x.events.isEmpty, regs := {}, epoch := x.epoch + 1,
    wdt := s.now - x.wdt })

/-- A halted core executes steps and halts again (R520). -/
def stepCore (c : Nat) (s : State) : State :=
  s.modCore c (fun x => { x with cause := 3, unit := 0, regs := {}, epoch := x.epoch + 1 })

/-- The cores of a mask. -/
def coresOf (m : Nat) : List Nat := [0, 1, 2, 3].filter (fun c => Nat.testBit m c)

/-- The breakpoint units are disabled, with their PATCH entries (R504, R523). -/
def clearBreaks (s : State) : State :=
  each s.breakUnits (fun u s => (s.modUnit u (fun _ => {})).logEvent (patchEntry .debug u 0xFFFFFFFF)) s

/-- The session ends (R523). -/
def endSess (s : State) : State :=
  let s := clearBreaks (each [0, 1, 2, 3] resumeCore s)
  s.modDbg (fun d => { d with isOpen := false, level := 0, keyIdx := 0, hos := 0 })

/-! ### Level 0 -/

/-- The debug identity (R512). -/
def State.dbgIdentity (s : State) : BitVec 64 :=
  Config.debugIdentity ((List.range 52).map (fun i => s.pwr.fuse.get 0 (152 + i)))

/-- IDENT (R512). -/
def execIdent (t : Nat) (index : Word) :=
  frame t { code := 1, level := 0, a := index.toNat } (fun _ => decide (3 < index.toNat)) noCheck (fun s =>
    let id := s.dbgIdentity.toNat
    (0, [BitVec.ofNat 32 (match index.toNat with
      | 0 => 0x06424B57
      | 1 => id / 2 ^ 32
      | 2 => id % 2 ^ 32
      | _ => s.dbgStatus)], s))

/-- What refuses a challenge of a level and key index (R514-R516): no usable root, a lockout, or a key that is not allowed. -/
def State.challengeCheck (s : State) (level idx : Nat) : Nat :=
  let e := s.keyAt idx
  let allowed := idx == s.bits 0x80008 15 8 || (idx == s.bits 0x80008 7 0 && level == 1)
  if s.noRoot then 6
  else if s.lockedOut then 9
  else if allowed && e.usable && e.kind == 2 then 0 else 6

/-- CHALLENGE (R514): the random challenge is a free value. -/
def execChallenge (t : Nat) (arg : Word) :=
  let v := arg.toNat
  let level := v / 2 ^ 8 % 256
  let idx := v % 256
  frame t { code := 2, level := 0, a := v } (fun _ => decide (2 ^ 16 ≤ v) || level == 0 || decide (2 < level) || idx == 0)
    (fun s => s.challengeCheck level idx) (fun s =>
    let r := s.free
    let c := BitVec.ofNat 128 r.1
    (0, (List.range 4).map (fun i => BitVec.ofNat 32 (c.toNat / 2 ^ (32 * (3 - i)))),
      r.2.modDbg (fun d => { d with chal := some (c, s.now, level, idx) })))

/-- Seconds in units of the model's time. -/
def sec : Nat := 1000 * ms

/-- The MAC that the newest challenge calls for, none when it is void or its record is gone (R514). -/
def State.expectedMac (s : State) : Option (BitVec 256) :=
  match s.dbg.chal with
  | none => none
  | some (c, at_, level, idx) =>
    let e := s.keyAt idx
    if s.now < at_ + 10 * sec ∧ e.usable ∧ e.kind = 2 then
      some (Config.debugMac e.record (bytesOf 16 c.toNat ++ bytesOf 8 s.dbgIdentity.toNat ++ bytesOf 1 level ++ bytesOf 1 idx))
    else none

/-- A failed RESPOND (R514, R515, R524). -/
def respondFail (s : State) : State :=
  let f := s.dbg.fails + 1
  let s := s.modDbg (fun d => { d with chal := none, fails := f, lockEnd := some (s.now + min 1024 (2 ^ (f - 1)) * sec) })
  raise (srcGlobal 73) (s.logEvent (s.debugEntry 0x83 0 0 0 0))

/-- A RESPOND that matches opens the session or raises its level (R514, R515). -/
def respondMatch (level idx : Nat) (s : State) : State :=
  let up := !s.dbg.isOpen || decide (s.dbg.level < level)
  raise (srcGlobal 74) (s.modDbg (fun d => { d with
    isOpen := true, level := if up then level else d.level, keyIdx := if up then idx else d.keyIdx,
    chal := none, fails := 0, lockEnd := none }))

/-- RESPOND (R514). -/
def execRespond (t : Nat) (mac : BitVec 256) :=
  frame t { code := 3, level := 0 } (fun _ => false) noCheck (fun s =>
    match s.expectedMac, s.dbg.chal with
    | some m, some (_, _, level, idx) => if m = mac then (0, [], respondMatch level idx s) else (6, [], respondFail s)
    | _, _ => (6, [], respondFail s))

/-! ### Accesses -/

/-- END (R523). -/
def execEndSession (t : Nat) := frame t { code := 4, level := 1 } (fun _ => false) noCheck (fun s => (0, [], endSess s))

/-- REG_READ (R517). -/
def execDbgRegRead (t : Nat) (addr : Word) :=
  frame t { code := 5, level := 1, a := addr.toNat } (fun _ => decide (addr.toNat % 4 ≠ 0)) noCheck (fun s =>
    let r := readWord .debug false addr.toNat s
    (0, [r.1], r.2))

/-- REG_WRITE (R517). -/
def execDbgRegWrite (t : Nat) (addr value : Word) :=
  frame t { code := 6, level := 2, a := addr.toNat, b := value.toNat } (fun _ => decide (addr.toNat % 4 ≠ 0)) noCheck (fun s =>
    let r := directWrite .debug false addr.toNat value.toNat s
    ((match r.1 with | .ok => 0 | .refused => 6 | .noLog => 5), [], r.2))

/-- An access of master 4 that leaves the ENV block's own window as it is (R517, R518). -/
def viaEnv (f : State → State) (s : State) : (Bool × Bool) × List Word × State :=
  let r := f s
  ((r.env.memRefused, r.env.memPoison), (List.range 8).map (fun i => r.reg (0x60420 + 4 * i)),
    { r with regs := s.regs, env := { r.env with memRefused := s.env.memRefused, memPoison := s.env.memPoison } })

/-- The arguments of a Spool address are out of range (R512). -/
def spoolBad (hi lo : Word) : Bool := decide (2 ^ 16 ≤ hi.toNat) || decide (lo.toNat % 32 ≠ 0)

/-- MEM_READ (R518): a slot that Fatal cleared is refused. -/
def execMemRead (t : Nat) (hi lo : Word) :=
  frame t { code := 7, level := 1, a := hi.toNat, b := lo.toNat } (fun _ => spoolBad hi lo)
    (fun s => if s.pwr.fatal && s.env.cleared && decide (2 ^ 12 ≤ hi.toNat) then 6 else 0) (fun s =>
    let r := viaEnv (memReadAt 4 (hi.toNat * 2 ^ 32 + lo.toNat)) s
    (if r.1.1 then 6 else if r.1.2 then 0x0A else 0, r.2.1, r.2.2))

/-- MEM_WRITE (R518). -/
def execMemWrite (t : Nat) (hi lo : Word) (words : List Word) :=
  frame t { code := 8, level := 2, a := hi.toNat, b := lo.toNat } (fun _ => spoolBad hi lo || words.length != 8) noCheck (fun s =>
    let r := viaEnv (memWriteAt 4 (hi.toNat * 2 ^ 32 + lo.toNat) (words.flatMap (fun w => bytesOf 4 w.toNat))) s
    (if r.1.1 then 6 else 0, [], r.2.2))

/-- The size of a Gondola memory (R480, R502, R512). -/
def gmemSize (mem : Nat) : Nat := match mem with | 0 => 2 ^ 23 | 1 => 2 ^ 22 | _ => 2 ^ 11

/-- The arguments of a Gondola memory access are out of range (R512). -/
def gmemBad (mem addr : Word) : Bool :=
  decide (3 < mem.toNat) || decide (addr.toNat % 32 ≠ 0) || (mem.toNat != 3 && decide (gmemSize mem.toNat ≤ addr.toNat))

/-- The 32 bytes at an address of a Gondola memory, and their poison (R480, R512). -/
def State.gmemWord (s : State) (mem a : Nat) : List Byte × Bool :=
  let bytes (t : Tbl Byte) : List Byte := (List.range 32).map (fun i => t.get 0 (a + i))
  match mem with
  | 0 => (bytes s.gon.code, s.gon.codePoison.get false a)
  | 1 => (bytes s.gon.data, s.gon.dataPoison.get false a)
  | _ => (bytes s.gon.patch, false)

/-- GMEM_READ (R512, R518). -/
def execGmemRead (t : Nat) (mem addr : Word) :=
  frame t { code := 9, level := 1, a := mem.toNat, b := addr.toNat } (fun _ => gmemBad mem addr)
    (fun s => if mem.toNat = 3 then 6 else if (s.gmemWord mem.toNat addr.toNat).2 then 0x0A else 0) (fun s =>
    let bs := (s.gmemWord mem.toNat addr.toNat).1
    (0, (List.range 8).map (fun i => BitVec.ofNat 32 (byteWord bs i)), s))

/-- 32 bytes are written to data RAM, which clears their poison (R518). -/
def gmemPut (a : Nat) (bs : List Byte) (s : State) : State :=
  let s := each (List.range 32) (fun i s => s.modGon (fun g => { g with data := g.data.set 0 (a + i) (bs.getD i 0) })) s
  s.modGon (fun g => { g with dataPoison := g.dataPoison.set false a false })

/-- GMEM_WRITE (R512, R518): data RAM alone. -/
def execGmemWrite (t : Nat) (mem addr : Word) (words : List Word) :=
  frame t { code := 0x0A, level := 2, a := mem.toNat, b := addr.toNat } (fun _ => gmemBad mem addr || words.length != 8)
    (fun _ => if mem.toNat = 1 then 0 else 6)
    (fun s => (0, [], gmemPut addr.toNat (words.flatMap (fun w => bytesOf 4 w.toNat)) s))

/-! ### Run control -/

/-- The argument word of RUN with the op of its row (R512). -/
def runArg (op : Nat) (arg : Word) : Nat := arg.toNat / 8 * 8 + op

/-- The core mask of RUN. -/
def runMask (v : Nat) : Nat := v / 16 % 16

/-- A RUN command of an op (R512, R519, R520). -/
def runCmd (t op : Nat) (arg : Word) (check : Nat → State → Nat) (f : Nat → State → State) :
    State → Host.Outcome State Fault Refusal :=
  let v := runArg op arg
  let n := v / 2 ^ 16
  frame t { code := 0x0B, level := 2, hi := runMask v, a := v }
    (fun _ => decide (v / 2 ^ 8 % 256 ≠ 0) || Nat.testBit v 3 || (if op = 3 then n == 0 else n != 0))
    (check (runMask v)) (fun s => (0, [], f (runMask v) s))

/-- RUN halt (R519). -/
def execDbgHalt (t : Nat) (arg : Word) := runCmd t 1 arg (fun _ => noCheck) (fun m s => each (coresOf m) (haltCore 1 0) s)

/-- RUN resume (R519). -/
def execDbgResume (t : Nat) (arg : Word) := runCmd t 2 arg (fun _ => noCheck) (fun m s => each (coresOf m) resumeCore s)

/-- RUN step (R520). -/
def execDbgStep (t : Nat) (arg : Word) :=
  runCmd t 3 arg (fun m s => if (coresOf m).all (fun c => (s.coreAt c).halted) then 0 else 8)
    (fun m s => each (coresOf m) stepCore s)

/-- RUN halt-on-start (R522). -/
def execDbgHaltOnStart (t : Nat) (arg : Word) :=
  runCmd t 4 arg (fun _ => noCheck) (fun m s => s.modDbg (fun d => { d with hos := BitVec.ofNat 4 m }))

/-- The core and state index of an argument word (R512). -/
def coreOf (arg : Word) : Nat := arg.toNat / 2 ^ 8 % 4
def indexOf (arg : Word) : Nat := arg.toNat % 256

/-- The core is not halted (R511). -/
def State.notHalted (s : State) (c : Nat) : Nat := if (s.coreAt c).halted then 0 else 8

/-- A state word of a halted core (R512): open until it is written. -/
def State.coreWord (s : State) (c i : Nat) : BitVec 64 :=
  ((s.coreAt c).regs.get none i).getD (Config.coreWord c (s.coreAt c).epoch i)

/-- CORE_READ (R512). -/
def execCoreRead (t : Nat) (arg : Word) :=
  frame t { code := 0x0C, level := 1, hi := coreOf arg, a := arg.toNat } (fun _ => decide (2 ^ 10 ≤ arg.toNat))
    (fun s => s.notHalted (coreOf arg)) (fun s =>
    let v := (s.coreWord (coreOf arg) (indexOf arg)).toNat
    (0, [BitVec.ofNat 32 (v / 2 ^ 32), BitVec.ofNat 32 v], s))

/-- CORE_WRITE (R512). -/
def execCoreWrite (t : Nat) (arg hi lo : Word) :=
  frame t { code := 0x0D, level := 2, hi := coreOf arg, a := arg.toNat, b := hi.toNat } (fun _ => decide (2 ^ 10 ≤ arg.toNat))
    (fun s => s.notHalted (coreOf arg)) (fun s =>
    (0, [], s.modCore (coreOf arg) (fun x => { x with regs := x.regs.set none (indexOf arg) (some (hi ++ lo)) })))

/-- The unit of BKPT (R512). -/
def bkptUnit (v : Nat) : Nat := v / 2 ^ 16 % 64

/-- A reserved bit of BKPT's argument is set. -/
def bkptBad (v : Nat) : Bool := decide (v / 2 ^ 22 ≠ 0) || decide (v / 2 ^ 12 % 16 ≠ 0) || decide (v / 4 % 64 ≠ 0)

/-- A patch unit is set with its PATCH entry, or left with status 5 where the Logbook does not take it (R413, R524). -/
def bkptSet (u : Nat) (x : UnitSt) (s : State) : Nat × List Word × State :=
  match s.commit (patchEntry .debug u x.logged) with
  | none => (5, [], logRefused s)
  | some s => (0, [], s.modUnit u (fun _ => x))

/-- BKPT with enable (R521). -/
def execBkptEnable (t : Nat) (arg addr : Word) :=
  let v := arg.toNat / 2 * 2 + 1
  let u := bkptUnit v
  frame t { code := 0x0E, level := 2, hi := u, a := v, b := addr.toNat }
    (fun s => bkptBad v || !s.flashOk addr.toNat)
    (fun s => if (s.unitAt u).enable && !(s.unitAt u).brk then 6 else 0)
    (bkptSet u { enable := true, brk := true, mask := BitVec.ofNat 4 (v / 2 ^ 8), all := Nat.testBit v 1,
                 flash := BitVec.ofNat 25 addr.toNat })

/-- BKPT without enable (R521). -/
def execBkptDisable (t : Nat) (arg addr : Word) :=
  let v := arg.toNat / 2 * 2
  let u := bkptUnit v
  frame t { code := 0x0E, level := 2, hi := u, a := v, b := addr.toNat } (fun _ => bkptBad v) noCheck
    (fun s => if (s.unitAt u).enable then bkptSet u {} s else (0, [], s))

/-- A core halts on a breakpoint, with its entry (R521, R524). -/
def breakCore (u c : Nat) (s : State) : State :=
  if (s.coreAt c).halted then s else (haltCore 2 u c s).logEvent (s.debugEntry 0x80 0 u 0 0)

/-- BREAKPOINT_HIT (R521): a core of the unit's mask is about to execute an instruction of its word. -/
def execBreakpointHit (core : Fin 4) (unit : Fin 64) := live (fun s =>
  let x := s.unitAt unit.val
  if x.enable && x.brk && Nat.testBit x.mask.toNat core.val && !(s.coreAt core.val).halted then
    let s := breakCore unit.val core.val s
    if x.all then each (coresOf x.mask.toNat) (breakCore unit.val) s else s
  else s)

/-! ### Frames that fail, and time -/

/-- DBG_FRAME_ABANDON (R508, R509, R525): a low of more than 20 µs, or a high that is too long, abandons the frame. Nothing of it is
left; a command whose entry is committed is complete. -/
def execDbgFrameAbandon := done (fun s =>
  if s.pwr.por then s else s.modDbg (fun d => { d with abandoned := true, answer := [] }))

/-- DBG_COMMAND_TIMEOUT (R510, R511): the status is 0x07 and no data follow. -/
def execDbgCommandTimeout := done (fun s => if s.dbgServed then dbgReply 7 [] s else s)

/-- DBG_BAD_FRAME (R510, R511, R524): the cells of a frame whose CRC fails, or whose command is unknown or has a wrong number of
arguments. A frame that is as R512 gives has its own row. -/
def execDbgBadFrame (t unit : Nat) (lows : List Nat) := done (fun s =>
  if !s.dbgServed then s else
  let s := s.at t
  let bs := cellBytes unit lows
  let body := bs.take (bs.length - 1)
  let cmd := (field bs 0 1)
  if lows.length % 8 ≠ 0 ∨ body.isEmpty ∨ crc8 (unpackBits body) ≠ field bs (bs.length - 1) 1 then
    dbgReply 2 [] (s.logEvent (s.debugEntry 0xFF 2 0 0 0))
  else
    let s := s.modDbg (fun d => { d with lastFrame := s.now, abandoned := false })
    if dbgArgs cmd = some (body.length / 4) ∧ body.length % 4 = 1 then s
    else match s.commit (s.debugEntry cmd 3 0 (field body 1 4) (field body 5 4)) with
      | none => dbgReply 5 [] (logRefused s)
      | some s => dbgReply 3 [] s)

/-- CHALLENGE_VOID (R514): 10 s after it was issued. -/
def execChallengeVoid (t : Nat) := done (fun s =>
  let s := s.at t
  match s.dbg.chal with
  | some (_, at_, _, _) => if at_ + 10 * sec ≤ s.now then s.modDbg (fun d => { d with chal := none }) else s
  | none => s)

/-- LOCKOUT_END (R515). -/
def execLockoutEnd (t : Nat) := done (fun s =>
  let s := s.at t
  match s.dbg.lockEnd with
  | some e => if e ≤ s.now then s.modDbg (fun d => { d with lockEnd := none }) else s
  | none => s)

/-- DBG_SESSION_IDLE (R513, R523): 60 s after the last frame that passed its CRC, while the debug domain's clock ran. -/
def execDbgSessionIdle (t : Nat) := done (fun s =>
  let s := s.at t
  if s.dbgServed && s.dbg.isOpen && decide (s.dbg.lastFrame + 60 * sec ≤ s.now) then
    (endSess s).logEvent (s.debugEntry 0x82 0 0 0 0)
  else s)

end Sys2Proof.Machine
end

