-- ==== Sys2Proof/Machine/Schedule.lean ====
section
/-! DEFINITION. The commands of the schedule: firing, loading, cancelling, and the twenty actions as they fire (R58-R66).
Firing happens in LOCKED, without Fatal and outside reset; otherwise nothing fires (R50, R371). -/

namespace Sys2Proof.Machine

/-- SCHED_FIRE (R61): the entries that the beat time has reached. -/
def execSchedFire (t : Nat) := live (fun s => fireDue (s.at t))

/-- A write of SCHED_CMD with its REG_WRITE entry (R414, R491), without which nothing is done and the result is 5 (R59); a CTRL
flit carries the operation itself (R534). -/
def schedWrite (o : Origin) (v : Nat) (f : State → State) : State → Host.Outcome State Fault Refusal :=
  writeCmd o 0x10110 v (match o with
    | .ctrlFlit _ => f
    | _ => fun s => match s.commit { kind := 0x01, origin := o, target := 0x10110, a := v } with
      | none => schedResult 5 (logRefused s)
      | some s => f s)

/-- SCHED_LOAD (R59). In Fatal only the debug wire writes (R371). -/
def execSchedLoad (o : Origin) (slot : Fin 1024) (w0 w1 w2 w3 : Word) :=
  schedWrite o (slot.val + 2 ^ 16) (schedLoad o slot.val w0 w1 w2 w3)

/-- SCHED_CANCEL (R59). -/
def execSchedCancel (o : Origin) (slot : Fin 1024) :=
  schedWrite o (slot.val + 2 ^ 17) (schedCancel o slot.val)

/-- NOP (R58). -/
def execNop (f : Fire) (param : Word) := done (fireCmd f (.nop param.toNat))

/-- STAGE_APPLY (R402); `eccBad`: the set has an uncorrectable error. -/
def execStageApply (f : Fire) (set : Fin 8) (retain eccBad : Bool) := done (fireCmd f (.stageApply set.val retain eccBad))

/-- MODE_SET (R15, R177). -/
def execModeSet (f : Fire) (p : PathNo) (m : Mode) := done (fireCmd f (.modeSet p.val m))

/-- CAPTURE_OPEN (R264). -/
def execCaptureOpen (f : Fire) (st : StreamNo) (limit : Word) := done (fireCmd f (.captureOpen st.val limit.toNat))

/-- CAPTURE_CLOSE (R265). -/
def execCaptureClose (f : Fire) (st : StreamNo) := done (fireCmd f (.captureClose st.val))

/-- WINDOW_OPEN (R316). -/
def execWindowOpen (f : Fire) (pair : PathNo) (ctx : Fin 4) (label : BitVec 16) :=
  done (fireCmd f (.windowOpen pair.val ctx.val label))

/-- WINDOW_CLOSE (R316). -/
def execWindowClose (f : Fire) (pair : PathNo) (ctx : Fin 4) := done (fireCmd f (.windowClose pair.val ctx.val))

/-- SPARE_SWAP (R167). -/
def execSpareSwap (f : Fire) (ip : PortNo) (inLane outLane : Fin 64) :=
  done (fireCmd f (.spareSwap ip.val inLane.val outLane.val))

/-- REKEY start (R469). -/
def execRekeyStart (f : Fire) (old new : Fin 16) := done (fireCmd f (.rekey 0 old.val new.val))

/-- REKEY pause (R470). -/
def execRekeyPause (f : Fire) (old new : Fin 16) := done (fireCmd f (.rekey 1 old.val new.val))

/-- REKEY resume (R470). -/
def execRekeyResume (f : Fire) (old new : Fin 16) := done (fireCmd f (.rekey 2 old.val new.val))

/-- REKEY retire (R470). -/
def execRekeyRetire (f : Fire) (old new : Fin 16) := done (fireCmd f (.rekey 3 old.val new.val))

/-- ADAPT_FREEZE (R90, R91). -/
def execAdaptFreeze (f : Fire) (scope : FreezeScope) := done (fireCmd f (.freeze true (freezeTarget scope)))

/-- ADAPT_UNFREEZE (R90, R91). -/
def execAdaptUnfreeze (f : Fire) (scope : FreezeScope) := done (fireCmd f (.freeze false (freezeTarget scope)))

/-- LOG_MARK (R58, R413). -/
def execLogMark (f : Fire) (value : Word) := done (fireCmd f (.logMark value.toNat))

/-- STIM_START (R22, R597). -/
def execStimStart (f : Fire) (p : PathNo) (generator : Bool) := done (fireCmd f (.stimStart p.val generator))

/-- STIM_STOP (R58). -/
def execStimStop (f : Fire) (p : PathNo) := done (fireCmd f (.stimStop p.val))

/-- TRIGGER_ARM with bit 2 = 1 (R267). -/
def execTriggerArm (f : Fire) (p : PathNo) (dirs : BitVec 2) := done (fireCmd f (.trigger true p.val dirs.toNat))

/-- TRIGGER_ARM with bit 2 = 0 (R267). -/
def execTriggerDisarm (f : Fire) (p : PathNo) (dirs : BitVec 2) := done (fireCmd f (.trigger false p.val dirs.toNat))

/-- MARK_SEND (R234, R597). -/
def execMarkSend (f : Fire) (ip : PortNo) (value : Word) := done (fireCmd f (.markSend ip.val value.toNat))

end Sys2Proof.Machine
end

