-- ==== Sys2Proof/Machine/Training.lean ====
section
/-! DEFINITION. The commands of training (chapter 04): negotiation sets, the speed ladder, training frames, PCIe and Ethernet
sides (R112-R153), and the end of a bring-up (R177). -/

namespace Sys2Proof.Machine

/-! ### Negotiation (R140-R142) -/

/-- The set of nine bytes after the polarity character (R140). -/
def negSetOf (b : List Nat) : NegSet :=
  let f (i : Nat) : Byte := BitVec.ofNat 8 (b.getD i 0)
  { setType := f 0, version := f 1, tag := f 2, pos := f 3, phys := f 4, laneCount := f 5, maxRate := f 6, caps := f 7, check := f 8 }

/-- The eight bytes that the check covers (R140). -/
def setBody (x : NegSet) : List Byte := [x.setType, x.version, x.tag, x.pos, x.phys, x.laneCount, x.maxRate, x.caps]

/-- The check of a received set: every field holds a listed value, the check matches (R140). -/
def setValid (x : NegSet) : Bool :=
  [1, 2, 3].contains x.setType.toNat && [1, 2].contains x.version.toNat && decide (x.tag.toNat < 32)
    && decide (x.pos.toNat < 32) && decide (x.phys.toNat < 64) && decide (1 ≤ x.laneCount.toNat)
    && decide (x.laneCount.toNat ≤ 18) && decide (x.maxRate.toNat < 4) && decide (x.caps.toNat < 4)
    && x.check.toNat == crc8 (unpackBits (setBody x))

/-- The set that lane `l` at position `k` of a port sends (R140), of the type that its training state gives. -/
def State.ownSet (s : State) (ip k l : Nat) : NegSet :=
  let x : NegSet :=
    { setType := BitVec.ofNat 8 (s.ltrAt l).sends, version := 2, tag := BitVec.ofNat 8 (s.ipTag ip), pos := BitVec.ofNat 8 k,
      phys := BitVec.ofNat 8 l, laneCount := BitVec.ofNat 8 (s.ipLanes ip), maxRate := BitVec.ofNat 8 (s.ladMax ip),
      caps := if s.ladLead ip then 3 else 1, check := 0 }
  { x with check := BitVec.ofNat 8 (crc8 (unpackBits (setBody x))) }

/-- The line bits of the set that a lane sends at a running disparity (R74, R93, R140). -/
def State.ownSetBits (s : State) (ip k l : Nat) (rd : Bool) : List Bool :=
  let x := s.ownSet ip k l
  (setEncode rd ((setBody x ++ [x.check]).map (·.toNat))).map (fun b => b != s.txFlips l)

/-- A side that finds a partner of the wrong kind raises miscabled and does not train (R142). -/
def miscable (n : Nat) (iSide : Bool) (s : State) : State :=
  let s := s.modPath n (fun p => if iSide then { p with miscI := true, iTrain := 3 } else { p with miscD := true, dTrain := 3 })
  let s := if iSide then s.modLad (s.pathI n) (fun l => { l with step := 9, sends := [] }) else s
  raise (srcPath n 7) s

/-- The identity of a set passes the checks of R81. -/
def State.setIdentity (s : State) (ip l : Nat) (x : NegSet) : Bool :=
  x.tag.toNat == s.ipTag ip && decide (x.pos.toNat < s.ipLanes ip)
    && ((s.ipPositions ip).map (s.cfgLane ip)).all (fun m =>
      m == l || !(s.ltrAt m).negotiated || (s.laneAt m).pos != some x.pos.toNat)

/-- Eight sets of 11 characters at 2.5 Gb/s (R140, R141). -/
def confTime : Nat := 8 * 44 * ns

/-- Lane `l` has negotiated once it has sent 8 CONF sets and received 8 consecutive valid ones (R141): its position and its partner's
rate count, and an order other than the configured one is reported (R94). -/
def negotiate (ip l : Nat) (s : State) : State :=
  let t := s.ltrAt l
  match t.peerSet, t.confAt with
  | some x, some c =>
    if t.negotiated ∨ t.confRx < 8 ∨ s.now < c + confTime then s else
    let s := s.modLad ip (fun d => { d with partnerMax := min d.partnerMax x.maxRate.toNat })
    let s := (s.modLtr l (fun t => { t with negotiated := true })).modLane l (fun y => { y with pos := some x.pos.toNat })
    let home := (s.ipPositions ip).find? (fun j => s.cfgLane ip j == l)
    if home ≠ some x.pos.toNat ∧ !(s.laneAt l).orderDone then
      laneRaise l 7 ((s.modLane l (fun y => { y with orderDone := true })).logEvent (laneEntry .hardware l ip 5 x.pos.toNat 0))
    else s
  | _, _ => s

/-- A lane counts a valid ADV or CONF set toward its negotiation (R141); after 8 valid sets it sends CONF (R140). -/
def countSet (ip l : Nat) (x : NegSet) (s : State) : State :=
  let good := x.setType == 2 && s.setIdentity ip l x
  let s := s.modLtr l (fun t =>
    let turn := decide (7 ≤ t.setRx) && t.sends == 1
    { t with
      setRx := min 8 (t.setRx + 1), confRx := if good then min 8 (t.confRx + 1) else 0, peerSet := some x,
      sends := if turn then 2 else t.sends, confAt := if turn then some s.now else t.confAt, partnerPrec := x.caps.getLsbD 0 })
  negotiate ip l (s.modLad ip (fun d => { d with partnerLead := x.caps.getLsbD 1, partnerV1 := x.version == 1 }))

/-- A valid set at lane `l` of port `ip`: a HOLD pauses the ladder, any other goes on with it (R141, R142, R153). -/
def validSet (ip l : Nat) (inv : Bool) (x : NegSet) (s : State) : State :=
  let s := polarity l inv s
  let s := match s.pathOfI ip with
    | none => s
    | some n => s.modPath n (fun p => { p with kindI := 1 })
  if x.setType = 3 then s.modLad ip (fun d => { d with hold := d.hold.or (some s.now) })
  else
    let s := endHold ip s
    if (s.portAt ip).lad.step = 1 then countSet ip l x s else s

/-- A set that is not valid is ignored and counted (R140). -/
def badSet (ip l : Nat) (s : State) : State :=
  (s.modLtr l (fun t => { t with setRx := 0, confRx := 0 })).modLad ip (fun d => { d with badSets := satAdd (2 ^ 32 - 1) d.badSets 1 })

/-- Line bits from a comma on reach lane `l` (R74, R140-R142, R153). -/
def negBits (l : Nat) (bits : List Bool) (s : State) : State :=
  let got := setDecode bits
  if l < 64 then
    match s.portOfLane l with
    | none => s
    | some (ip, _) =>
      if !s.climbing ip then s else
      match got with
      | none => badSet ip l s
      | some (inv, b) => if setValid (negSetOf b) then validSet ip l inv (negSetOf b) s else badSet ip l s
  else
    match s.pathOfLane l, got with
    | some n, some (_, b) =>
      if (s.pathAt n).dTrain = 1 && setValid (negSetOf b) then miscable n false (s.modPath n (fun p => { p with kindD := 1 })) else s
    | _, _ => s

/-- ADV (R141): the bits of an ADV set. What the set is, its bits say. -/
def execAdv (l : LaneNo) (bits : Timed (List Bool)) := live (fun s => negBits l bits.x (s.at bits.t))

/-- CONF (R141). -/
def execConf (l : LaneNo) (bits : Timed (List Bool)) := live (fun s => negBits l bits.x (s.at bits.t))

/-- HOLD (R153). -/
def execHold (l : LaneNo) (bits : Timed (List Bool)) := live (fun s => negBits l bits.x (s.at bits.t))

/-- HOLD_TIMEOUT (R153): the partner has held the ladder for 100 ms. -/
def execHoldTimeout (ip : Timed PortNo) := live (fun s =>
  let s := s.at ip.t
  let ip := ip.x.val
  match (s.portAt ip).lad.hold with
  | none => s
  | some h => if s.climbing ip ∧ h + 100 * ms ≤ s.now then ladFail ip s else s)

/-- NEGOTIATION_END (R141, R149): at a ceiling of 2.5 Gb/s no rate suffices. -/
def execNegotiationEnd (t : Nat) (ip : PortNo) := live (fun s =>
  let s := s.at t
  if !s.advances ip then s else
  let s := each ((s.ipPositions ip).map (s.cfgLane ip)) (negotiate ip) s
  let l := (s.portAt ip).lad
  let neg := (s.ipPositions ip).filter (fun k => (s.ltrAt (s.ipLane ip k)).negotiated)
  if l.step ≠ 1 ∨ (neg.length < s.ipLanes ip ∧ s.now < l.since + 10 * ms) then s
  else
    let needs := [1, 2, 3].map (s.needAt ip) |>.filter (· != 0)
    let need := needs.foldl min (needs.headD 1)
    let ceiling := min (min (s.ladMax ip) l.partnerMax) (if l.partnerV1 then 2 else 3)
    let s := s.modLad ip (fun l => { l with eligible := posMask neg, ceiling := ceiling })
    if neg.length < need ∨ s.ladLead ip = l.partnerLead ∨ ceiling = 0 then ladFail ip s
    else ladChange ip 1 s)

/-- PARTNER_CLASSIFY_TIMEOUT (R142): the kind of partner that a lane without a valid set found. -/
def execPartnerClassifyTimeout (l : Fin 128) (kind : Fin 5) := live (fun s =>
  match s.pathOfLane l with
  | none => s
  | some n =>
    if l.val < 64 then
      if !s.advances (s.pathI n) || (s.portAt (s.pathI n)).lad.step ≠ 1 || (s.ltrAt l).setRx ≠ 0 then s
      else
        let s := s.modPath n (fun p => { p with kindI := kind.val })
        if kind = 2 ∨ kind = 3 then miscable n true s else s
    else
      let fam := s.dpFamily (s.pathD n)
      if (s.pathAt n).dTrain ≠ 1 then s
      else
        let s := s.modPath n (fun p => { p with kindD := kind.val })
        if kind = 1 ∨ (kind = 2 ∧ fam = 1) ∨ (kind = 3 ∧ fam = 0) then miscable n false s else s)

/-! ### Training frames (R143-R146) -/

/-- Field `[hi:lo]` of a control word. -/
def ctrlBits (c : BitVec 64) (hi lo : Nat) : Nat := c.toNat / 2 ^ lo % 2 ^ (hi + 1 - lo)

/-- The control word that lane `l` at position `k` of a port sends in its training frames (R144, R145). -/
def State.ownCtrl (s : State) (ip k l : Nat) : Nat :=
  let t := s.ltrAt l
  let c := s.ipTag ip * 2 ^ 59 + k * 2 ^ 54 + ((s.portAt ip).lad.rate - 1) % 4 * 2 ^ 52 + (if t.outWait then t.outPreset.getD 0 else 0) % 8 * 2 ^ 49
    + (if t.readyTx then 2 ^ 48 else 0) + s.tapReq l * 2 ^ 36 + t.outSeq * 2 ^ 32 + t.tapStatus.toNat * 2 ^ 20 + t.statusSeq.toNat * 2 ^ 16
  c + crc8 (bitsOf 56 (c / 256))

/-- The levels of a training frame of lane `l` (R93, R143): never precoded. -/
def State.ownFrame (s : State) (ip k l : Nat) (reg : List Bool) : List Nat :=
  (frameLevels (s.ownCtrl ip k l) reg).1.map (fun v => if s.txFlips l then 3 - v else v)

/-- Symbols between two training frames (R143). -/
def frameSpacing : Nat := 4096

/-- A frame at symbol position `pos` steps the frame finder of lane `l` (R80, R143): three misses in a row end the lock. Answers
whether the frame counts. -/
def frameStep (l pos : Nat) (inv : Bool) (s : State) : Bool × State :=
  let t := s.ltrAt l
  let gap := pos - t.frmPos
  let put (a : Anchor) (s : State) : State := s.modLtr l (fun t => { t with frm := a, frmPos := pos })
  match t.frm with
  | .search => (false, polarity l inv (put .candidate s))
  | .candidate =>
    if gap = frameSpacing then (true, put .locked s)
    else if gap < frameSpacing then (false, s)
    else (false, polarity l inv (put .candidate s))
  | .locked =>
    if gap % frameSpacing = 0 ∧ gap / frameSpacing ≤ 3 then
      (true, put .locked (s.modLtr l (fun t => { t with readyRx := if gap = frameSpacing then t.readyRx else 0 })))
    else if gap < 4 * frameSpacing then (false, s)
    else (false, polarity l inv (put .candidate s))

/-- A training frame of the present rate reaches a lane of a climbing port (R145): its new request is applied once, its answer and its
rx_ready count; the rules give no check of its port_tag and port_pos. -/
def trainFrame (ip l : Nat) (c : BitVec 64) (s : State) : State :=
  let s := if (s.portAt ip).lad.step = 2 then ladStep ip 3 s else s
  let s := tapAnswered l (ctrlBits c 19 16) (ctrlBits c 31 20) s
  let t := s.ltrAt l
  let seq := ctrlBits c 35 32
  let x := s.laneAt l
  let r := tapRequest (x.frozen || s.fixedTaps l) (ctrlBits c 51 49) (ctrlBits c 47 36) x.taps
  let s := if t.reqSeq = some seq then s else
    let s := s.modLtr l (fun t => { t with
      reqSeq := some seq, tapStatus := BitVec.ofNat 12 r.2.1, statusSeq := BitVec.ofNat 4 seq })
    let s := s.modLane l (fun x => { x with taps := r.1 })
    if r.2.2 then laneRaise l 8 s else s
  let s := readyCheck l (s.modLtr l (fun t => { t with readyRx := if c.getLsbD 48 then min 16 (t.readyRx + 1) else 0 }))
  let s := s.modLtr l (fun t => { t with switched := t.switched || (t.readyTx && decide (16 ≤ t.readyRx)) })
  let l := (s.portAt ip).lad
  if l.step = 3 ∧ s.passing ip (fun k => (s.ltrAt k).switched) = l.eligible then anchorsDone ip (ladStep ip 4 s) else s

/-- TRAINING_FRAME (R143-R145): the first 96 levels of a frame at a symbol position. A frame whose check fails, or of another rate, is
ignored. -/
def execTrainingFrame (l : Fin 64) (pos : Nat) (levels : BitVec 192) := live (fun s =>
  match s.portOfLane l, frameDecode levels with
  | some (ip, k), some (inv, c) =>
    let d := (s.portAt ip).lad
    if (d.step == 2 || d.step == 3) && d.changing.isNone && s.climbing ip && Nat.testBit d.eligible.toNat k && s.receives l then
      let c := BitVec.ofNat 64 c
      let r := frameStep l pos inv (endHold ip s)
      if r.1 ∧ ctrlBits c 53 52 ≠ 3 ∧ ctrlBits c 53 52 + 1 = d.rate then trainFrame ip l c r.2 else r.2
    else s
  | _, _ => s)

/-- RATE_CHANGE_IDLE_END (R77, R145, R146, R148): the lanes send training frames at the new rate. At the first rate they start with
the preset of init_preset; for init_preset 0 the spec gives no taps, and the model leaves them as they were (DESIGN CHOICE,
notes/assumptions/134.md). -/
def execRateChangeIdleEnd (ip : PortNo) := live (fun s =>
  match (if s.advances ip then (s.portAt ip).lad.changing else none) with
  | none => s
  | some r =>
    let first := (s.portAt ip).lad.rate = 0
    let s := (s.modLad ip (fun l => { l with rate := r, changing := none, since := s.now })).modPort ip (fun p => { p with txIdx := {} })
    each ((s.ipPositions ip).map (s.cfgLane ip)) (fun l s =>
      let s := s.modLtr l (fun t => { t with
        reqSeq := none, tapStatus := 0, statusSeq := 0, readyRx := 0, readyTx := false, switched := false, sends := 0, confAt := none,
        outWait := false, outPreset := none, frm := .search })
      s.modLane l (fun x => { x with
        txIdle := false, precRx := false, precTx := false, txMem := 0, rxMem := 0, eqSeen := 0, mon := (0, 0),
        taps := if first ∧ !s.fixedTaps l ∧ s.ladPreset ip ≠ 0 then presetTaps (s.ladPreset ip) else x.taps })) s)

/-! ### Ladder messages (R147-R151) -/

/-- The effect of a ladder message at a climbing port, which ends a HOLD (R153). -/
def ladMsg (ip : Nat) (f : State → State) : State → Host.Outcome State Fault Refusal :=
  live (fun s => if s.climbing ip then f (endHold ip s) else s)

/-- A local event of a ladder, which counts only while no HOLD pauses it (R153). -/
def ladEvent (ip : Nat) (f : State → State) : State → Host.Outcome State Fault Refusal :=
  live (fun s => if s.advances ip then f s else s)

/-- PRECODE (R150): a transmitter grants every request for which precoding support was exchanged. -/
def execPrecode (ip : PortNo) (mask : BitVec 18) := ladMsg ip (fun s =>
  if (s.portAt ip).lad.step ≠ 5 then s else
  let grant := mask &&& s.passing ip (fun l => (s.ltrAt l).partnerPrec)
  precodeCheck ip (ladSend ip 2 (s.portAt ip).lad.rate grant (s.modLad ip (fun l => { l with precPeer := some grant }))))

/-- PRECODE_ACK (R150). -/
def execPrecodeAck (ip : PortNo) (mask : BitVec 18) := ladMsg ip (fun s =>
  if (s.portAt ip).lad.step ≠ 5 then s
  else precodeCheck ip (ladAnswered ip 1 (s.modLad ip (fun l => { l with
    precAck := some (mask &&& l.precReq.getD 0 &&& l.eligible), precAcked := true }))))

/-- PRECODE_START (R150) on the lane at a position. -/
def execPrecodeStart (ip : PortNo) (pos : Fin 18) := ladEvent ip (fun s =>
  let l := (s.portAt ip).lad
  let tx := Nat.testBit (l.precPeer.getD 0).toNat pos
  let rx := Nat.testBit (l.precAck.getD 0).toNat pos
  precodeCheck ip (s.modLane (s.ipLane ip pos) (fun x => { x with precTx := x.precTx || tx, precRx := x.precRx || rx })))

/-- TEST_START (R151): the follower's test begins. -/
def execTestStart (ip : PortNo) (rate : Fin 4) := ladMsg ip (fun s =>
  let l := (s.portAt ip).lad
  if s.ladLead ip || l.rate ≠ rate.val || l.step ≠ 6 then s
  else ladStep ip 6 (ladAnswered ip 2 (s.modLad ip (fun l => { l with testing := true }))))

/-- PRBS_TEST_END (R151): the receiving lanes that pass; TEST_RESULT is sent. -/
def execPrbsTestEnd (ip : PortNo) (results : List PrbsResult) := ladEvent ip (fun s =>
  if (s.portAt ip).lad.step ≠ 6 then s else
  let pass := posMask ((results.filter (fun r =>
    r.uncorrectable == 0 && r.crcFails == 0 && r.bitErrors == 0 && decide (r.corrected ≤ s.fecMax ip))).map (·.pos.val))
  let m := pass &&& (s.portAt ip).lad.eligible
  testCheck ip (ladSend ip 4 (s.portAt ip).lad.rate m (s.modLad ip (fun l => { l with testOwn := some m }))))

/-- TEST_RESULT (R148, R151). -/
def execTestResult (ip : PortNo) (rate : Fin 4) (mask : BitVec 18) := ladMsg ip (fun s =>
  let l := (s.portAt ip).lad
  if l.step ≠ 6 ∨ l.rate ≠ rate.val then s
  else testCheck ip (ladAnswered ip 3 (s.modLad ip (fun l => { l with testPeer := some mask }))))

/-- OFFER (R147, R148): the follower accepts the next rate, or declines one above its maximum, which ends the climb. It sends ACCEPT on
every eligible lane at the present rate before it changes. -/
def execOffer (ip : PortNo) (rate : Fin 4) := ladMsg ip (fun s =>
  let l := (s.portAt ip).lad
  if s.ladLead ip ∨ l.step ≠ 7 ∨ rate.val ≠ l.rate + 1 then s
  else if l.sends.any (fun m => (m.1 == 6 || m.1 == 7) && m.2.1 == rate.val) then s
  else if s.ladMax ip < rate.val then slowFallback ip (ladSend ip 7 rate.val 0 (s.modLad ip (fun l => { l with sends := [] })))
  else ladSend ip 6 rate.val 0 (s.modLad ip (fun l => { l with sends := [] })))

/-- ACCEPT (R148). -/
def execAccept (ip : PortNo) (rate : Fin 4) := ladMsg ip (fun s =>
  let l := (s.portAt ip).lad
  if !s.ladLead ip ∨ l.step ≠ 7 ∨ rate.val ≠ l.rate + 1 then s else ladChange ip rate.val s)

/-- DECLINE (R148): the leader ends the ladder at the present rate if it suffices. -/
def execDecline (ip : PortNo) (rate : Fin 4) := ladMsg ip (fun s =>
  let l := (s.portAt ip).lad
  if !s.ladLead ip ∨ l.step ≠ 7 ∨ rate.val ≠ l.rate + 1 then s
  else ladDone ip (ladSend ip 8 l.rate l.eligible (ladAnswered ip 5 (slowFallback ip s))))

/-- DONE (R148, R164): the follower ends the ladder with the leader's final rate and positions. -/
def execDone (ip : PortNo) (rate : Fin 4) (mask : BitVec 18) := ladMsg ip (fun s =>
  let l := (s.portAt ip).lad
  if s.ladLead ip ∨ l.step ≠ 7 ∨ l.rate ≠ rate.val then s
  else ladDone ip (s.modLad ip (fun l => { l with eligible := l.eligible &&& mask, sends := [] })))

/-- LADDER_STEP_TIMEOUT (R148, R149): the lanes that have passed the step go on if they are enough. -/
def execLadderStepTimeout (ip : PortNo) := live (fun s =>
  let l := (s.portAt ip).lad
  if !s.advances ip then s else
  match l.step with
  | 2 => ladPassed ip (s.passing ip (fun k => (s.ltrAt k).reqSeq.isSome)) (ladStep ip 3) s
  | 3 => ladPassed ip (s.passing ip (fun k => (s.ltrAt k).switched)) (fun s => anchorsDone ip (ladStep ip 4 s)) s
  | 4 => ladPassed ip (s.passing ip s.anchored) (anchorsDone ip) s
  | 5 =>
    (match l.precPeer, l.precAck with
     | some tx, some rx => ladPassed ip (posMask ((positions l.eligible).filter (fun k =>
         (s.laneAt (s.ipLane ip k)).precTx == Nat.testBit tx.toNat k && (s.laneAt (s.ipLane ip k)).precRx == Nat.testBit rx.toNat k)))
         (precodeCheck ip) s
     | _, _ => ladFallback ip s)
  | 6 | 7 => ladFallback ip s
  | _ => s)

/-! ### PCIe sides (R120-R135) -/

/-- The lane numbers sent and received on the D lanes are compared when Configuration completes (R135). -/
def laneOrderCheck (n : Nat) (s : State) : State :=
  let ls := s.sideLanes n .dSide
  let got := ls.map (fun l => (s.laneAt l).peerLane)
  let sent := ls.map (fun l => (s.ltrAt l).laneSent.getD 0xFF)
  let o := if got = sent then 0 else if got = sent.reverse then 1 else 2
  let s := s.modPath n (fun p => { p with laneOrder := o })
  if o = 2 then raise (srcPath n 10) s else s

/-- The receiving and answering part of a TS1 or TS2 set at electrical lane `l` of a PCIe link (R92, R111, R124-R127). A path's lane keeps
its own phase until both pseudo-ports have finished it; a store lane, a link end, follows its partner's. -/
def tsLane (l : Nat) (inverted : Bool) (x : TsSet) (s : State) : State :=
  let s := polarity l inverted s
  let s := if (s.ltrAt l).rate = some x.rate.val then s else
    (s.modLtr l (fun t => { t with rate := some x.rate.val })).modLane l (fun y => { y with txMem := 0, rxMem := 0 })
  let s := if 5 ≤ x.rate.val then s.modLane l (fun y => { y with precTx := x.precodeReq }) else s
  let s := if x.ts2 && x.speedChange then s.modLtr l (fun t => { t with preset := x.preset.val }) else s
  match x.eqPhase with
  | none => s.modLtr l (fun t => { t with eqPhase := none, eqDone := false, outWait := false })
  | some ph =>
    let restart (t : LaneTr) : Bool := t.eqPhase.isNone || ph == 0 || decide (128 ≤ l)
    let s := s.modLtr l (fun t => if restart t ∧ t.eqPhase ≠ some ph.val then { t with eqPhase := some ph.val, eqDone := false } else t)
    if (s.ltrAt l).eqPhase ≠ some ph.val then s
    else if ph = 0 then pcieTakes l (s.ltrAt l).preset s
    else if ph = 1 then pcieReported l x s
    else if (ph = 2) = s.laneDpp l then pcieAnswer l x s
    else pcieReported l x s

/-- The equalisation fields that the pseudo-port of lane `l` sends (R121, R124): FS and LF, and its request in the phase in which its
receiver evaluates, else its transmitter's report. -/
def State.eqFields (s : State) (l : Nat) (x : TsSet) : TsSet :=
  let t := s.ltrAt l
  let asks := t.eqPhase == some (if s.laneDpp l then 3 else 2)
  let coef (c : List Int) : BitVec 6 × BitVec 6 × BitVec 6 :=
    (BitVec.ofNat 6 (c.getD 2 0).natAbs, BitVec.ofNat 6 (c.getD 3 0).natAbs, BitVec.ofNat 6 (c.getD 4 0).natAbs)
  { x with
    eqPhase := t.eqPhase.map (Fin.ofNat 4), fs := BitVec.ofNat 6 ownFs, lf := BitVec.ofNat 6 ownLf,
    preset := if asks then Fin.ofNat 16 (t.outPreset.getD t.preset) else Fin.ofNat 16 t.preset,
    coef := if asks then coef (if t.outWait then t.outTaps else t.reqTaps) else t.ansCoef,
    usesCoef := asks && t.outPreset.isNone, reject := !asks && t.ansReject }

/-- The equalisation fields of the virtual pseudo-port (R126): the values that the controller last asked for, without Reject. -/
def virtualFields (asked x : TsSet) : TsSet :=
  { x with eqPhase := asked.eqPhase, fs := BitVec.ofNat 6 ownFs, lf := BitVec.ofNat 6 ownLf, preset := asked.preset,
           coef := asked.coef, usesCoef := asked.usesCoef, reject := false }

/-- Data rates up to PATH_TRAIN.pcie_max_rate (R121, R123). -/
def State.ratesUpTo (s : State) (n : Nat) : BitVec 7 := BitVec.ofNat 7 (2 ^ (s.pcieMax n + 1) - 1)

/-- The set that path `n` forwards in direction `dir` on lane `k` for a received one (R121-R123, R126, R127). Every other field is
unchanged. -/
def State.tsForward (s : State) (n : Nat) (dir : Dir) (k : Nat) (x : TsSet) : TsSet :=
  let out : Side := if dir = .toI then .iSide else .dSide
  let l := s.sideLane n out k
  let x := { x with dataRates := x.dataRates &&& s.ratesUpTo n }
  let x := if !x.ts2 then x else { x with present1 := true, present2 := x.present1 }
  let x := if x.eqPhase.isNone ∨ x.ts2 then x
    else if s.electrical n out then s.eqFields l x
    else match (s.pathAt n).tsIn.get none k with
      | some a => virtualFields a x
      | none => x
  if x.rate.val < 5 then x
  else { x with precodeReq := !s.electrical n out || s.wantsPrecode l (s.ltrAt l).h1Large }

/-- The highest rate of a set of rates. -/
def topRate (r : BitVec 7) : Nat := ((List.range 7).filter (fun i => r.getLsbD i)).foldl max 0

/-- A rate change offers the highest rate that the sets forwarded both ways on lane `k` name (R119). -/
def offerRate (n k : Nat) (s : State) : State :=
  match (s.pathAt n).tsOut.get none k, (s.pathAt n).tsOut.get none (16 + k) with
  | some a, some b => s.modPath n (fun p => { p with offered := some (topRate (a.dataRates &&& b.dataRates)) })
  | _, _ => s

/-- A TS1 or TS2 set received on lane `k` of one side of a PCIe path (R121-R127, R134-R136). -/
def tsReceive (n : Nat) (dir : Dir) (k : Nat) (inverted : Bool) (x : TsSet) (s : State) : State :=
  let from_ : Side := if dir = .toI then .dSide else .iSide
  let key := (if dir = .toI then 16 else 0) + k
  let l := s.sideLane n from_ k
  let s := s.modPath n (fun p => { p with
    tsIn := p.tsIn.set none key (some x),
    altProto := if x.alt.isNone then p.altProto else if dir = .toI then (p.altProto.1, x.alt) else (x.alt, p.altProto.2) })
  let s := if s.electrical n from_ then tsLane l inverted x s else s
  let s := match dir, x.laneNum with
    | .toI, some v => s.modLane l (fun y => { y with peerLane := v })
    | .toD, some v => s.modLtr (s.sideLane n .dSide k) (fun t => { t with laneSent := some v })
    | _, none => s
  let s := s.modPath n (fun p => match dir with
    | .toI => { p with kindD := 2 }
    | .toD => if p.mode = .pass then { p with kindI := 2 } else p)
  let s := match x.compliance with
    | none => s
    | some pr => each ([Side.dSide, Side.iSide].filter (s.electrical n) |>.map (fun d => s.sideLane n d k)) (fun l s => pcieTakes l pr.val s) s
  let s := if !x.ts2 then s else
    let up := s.isDpp n .dSide == (dir == .toD)
    let s := if up then s.modPath n (fun p => { p with retimer := if x.present1 then 2 else 1 }) else s
    if x.present1 && x.present2 then raise (srcPath n 15) s else s
  let s := s.modPath n (fun p => { p with tsOut := p.tsOut.set none key (some (s.tsForward n dir k x)) })
  let s := if x.speedChange then offerRate n k s else s
  if x.configDone ∧ dir = .toI then laneOrderCheck n s else s

/-- TS_ORDERED_SET (R111, R121) on a lane of a path, or of a store port, where the device is the root port. -/
def execTsOrderedSet (t : Nat) (e : PcieEnd) (inverted : Bool) (ts : TsSet) := live (fun s =>
  let s := s.at t
  match e with
  | .path p dir k => if s.pciePath p && decide (k.val < s.dpWidth (s.pathD p)) then tsReceive p dir k inverted ts s else s
  | .store l =>
    if (s.laneAt (128 + l.val)).st ≠ .run then s else
    let s := tsLane (128 + l.val) inverted ts s
    match ts.laneNum with
    | some v => s.modLane (128 + l.val) (fun y => { y with peerLane := v })
    | none => s)

/-- EQ_EVALUATION_END (R125-R127): the device's receivers of a side have finished the phase; the phase moves on once both pseudo-ports
have, and a virtual one has at once. -/
def execEqEvaluationEnd (t : Nat) (p : PathNo) (side : Side) := live (fun s =>
  let s := s.at t
  if !(s.pciePath p && s.electrical p side) then s else
  let s := each (s.sideLanes p side) (fun l s =>
    let s := s.modLtr l (fun t => { t with eqDone := true })
    if 5 ≤ s.curRate l ∧ s.curRate l ≤ 6 then
      s.modLane l (fun x => { x with precRx := s.wantsPrecode l (s.ltrAt l).h1Large })
    else s) s
  let ls := s.sideLanes p .dSide ++ (if (s.pathAt p).mode = .pass then s.sideLanes p .iSide else [])
  if ls.all (fun l => (s.ltrAt l).eqDone) then
    each ls (fun l s => s.modLtr l (fun t => { t with
      eqDone := false, outWait := false, eqPhase := t.eqPhase.map (fun k => min 3 (k + 1)) })) s
  else s)

/-- ELECTRICAL_IDLE_ENTRY (R129, R223, R224): forwarded in Pass; in the Guard family, what the DUT does goes up the tunnel as
a line event, and what the controller does comes down it and is played at its symbol position. -/
def execElectricalIdleEntry (p : PathNo) (dir : Dir) (mask : BitVec 16) (interval : Word) (offset : BitVec 16) := live (fun s =>
  let m := (s.pathAt p).mode
  if !(s.pathEn p && (m == .pass || m.guardFam)) then s else
  match dir with
  | .toD => if m = .pass then eiEnter p mask s else s
  | .toI =>
    let packed := s.packs p
    let s := s.modPath p (fun x => { x with eiToI := x.eiToI ||| mask })
    let s := if packed && s.dIdle p then packRest 512 p s else s
    if m = .pass then each (s.maskLanes p .iSide mask.toNat) (fun l s => s.modLane l (fun x => { x with txIdle := true })) s
    else lineUp p (lineEventBytes 1 mask.toNat interval.toNat offset.toNat 0) s)

/-- The D→I capture of path `n` goes on at an offset of the interval of the exit that ends electrical idle (R259): the interval in which
the idle began is captured with its idle bits 0, and the record in progress is sealed (DEDUCED, notes/assumptions/150.md). -/
def captureResume (n k off : Nat) (s : State) : State :=
  let p := s.pathAt n
  let w := s.dpWidth (s.pathD n)
  let l := intervalBits w
  let blank (m : Nat) : List (List Bool) := List.replicate w (List.replicate m false)
  if k = p.capK then s.modPath n (fun p => { p with capBits := if p.capBits.isEmpty then blank off else p.capBits.map (fit off false) })
  else
    let s := if shortest p.capBits = 0 then s
      else captureLine n 1 p.capK (dataPayload (p.capBits.map (fit l false)) l none) s
    let s := each (s.captureDir n 1) (fun st s => if (s.strmAt st).cur.isSome then sealFull st s else s) s
    s.modPath n (fun p => { p with capK := k, capBits := blank off })

/-- ELECTRICAL_IDLE_EXIT (R129, R223, R224): packing resumes at the interval of the exit when every lane was idle. -/
def execElectricalIdleExit (p : PathNo) (dir : Dir) (mask : BitVec 16) (interval : Word) (offset : BitVec 16) := live (fun s =>
  let m := (s.pathAt p).mode
  if !(s.pathEn p && (m == .pass || m.guardFam)) then s else
  match dir with
  | .toD => if m = .pass then eiExit p mask s else s
  | .toI =>
    let was := s.dIdle p
    let s := s.modPath p (fun x => { x with eiToI := x.eiToI &&& ~~~mask })
    if m = .pass then wakeTx p .iSide mask s
    else
      let s := if was then
          s.modPath p (fun x => { x with
            packK := interval.toNat, packOff := offset.toNat, packBits := [], packArr := [] })
        else s
      let s := if was then captureResume p interval.toNat offset.toNat s else s
      lineUp p (lineEventBytes 2 mask.toNat interval.toNat offset.toNat 0) s)

/-- LINK_DOWN (R119): the D-side link leaves its active state. -/
def execLinkDown (p : PathNo) := live (fun s =>
  if s.pathEn p && (s.pathAt p).dTrain == 2 then raise (srcPath p 9) (s.modPath p (fun x => { x with dTrain := 1 })) else s)

/-! ### Ethernet sides (R137-R139) -/

/-- training_fail of a side, but not where miscabled was raised (R119). -/
def trainFail (n : Nat) (iSide : Bool) (s : State) : State :=
  let misc := if iSide then (s.pathAt n).miscI else (s.pathAt n).miscD
  let s := s.modPath n (fun p => if iSide then { p with iTrain := 3 } else { p with dTrain := 3 })
  if misc then s else raise (srcPath n 6) s

/-- AN_PAGE (R137, R139): in Pass it is regenerated on port position 0 of the other side; in the Guard family a page of the DUT goes
up the tunnel, and one of the controller comes down it as a line event. A resolved rate other than the port's fails. -/
def execAnPage (p : PathNo) (dir : Dir) (page : BitVec 48) (resolved : Option (Fin 16)) := live (fun s =>
  if !s.ethPath p then s else
  let guard := (s.pathAt p).mode.guardFam
  let s := match dir with
    | .toI =>
      let s := s.modPath p (fun x => { x with kindD := 3, pageToI := some page })
      if guard then lineUp p (s.eventNow p 5 1 page.toNat) s else s
    | .toD => if guard then s else s.modPath p (fun x => { x with kindI := 3, pageToD := some page })
  match resolved with
  | none => s
  | some r => if r.val ≠ s.laneRate (64 + s.dpFirst (s.pathD p)) then trainFail p false s else s)

/-- SEGMENT_TRAINING_COMPLETE (R86, R92, R127, R138, R139): the requests that the partner made of the device's transmitters are answered,
polarity and precoding are as the training found them. The I segment is complete only after the D segment; in the Guard family the
controller is told that the D segment is ready. -/
def execSegmentTrainingComplete (p : PathNo) (side : Side) (res : SegResult) := live (fun s =>
  if !s.ethPath p then s else
  let s := if !s.electrical p side then s else
    let s := res.reqs.foldl (fun s r => if r.1.val < s.dpWidth (s.pathD p) then ethAnswer (s.sideLane p side r.1) r.2 s else s) s
    each (List.range (s.dpWidth (s.pathD p))) (fun k s =>
      let l := s.sideLane p side k
      (polarity l (res.inverted.getLsbD k) s).modLane l (fun x => { x with
        precTx := res.precode.getLsbD k, precRx := s.wantsPrecode l (s.ltrAt l).h1Large })) s
  match side with
  | .dSide =>
    if (s.pathAt p).dTrain ≠ 1 then s else
    let s := s.modPath p (fun x => { x with segReady := true, dTrain := 2 })
    if (s.pathAt p).mode.guardFam then lineUp p (s.eventNow p 7 0 0) s else s
  | .iSide =>
    if (s.pathAt p).mode = .pass ∧ (s.pathAt p).segReady ∧ (s.pathAt p).iTrain = 1 then
      s.modPath p (fun x => { x with iTrain := 2 })
    else s)

/-! ### The end of a bring-up -/

/-- A PCIe rate change has ended: one that ended below the rate offered is a fall-back (R119). -/
def rateChangeEnd (n : Nat) (s : State) : State :=
  let got := s.curRate (64 + s.dpFirst (s.pathD n))
  let fell := s.pciePath n && ((s.pathAt n).offered.map (fun r => decide (got < r))).getD false
  let s := s.modPath n (fun p => { p with offered := none })
  if fell then raise (srcPath n 14) s else s

/-- LINK_ACTIVE (R119, R176, R177, R408): the links of a path in TRAIN are active, so it enters STEADY. -/
def execLinkActive (t : Nat) (p : PathNo) := live (fun s =>
  let s := s.at t
  let x := s.pathAt p
  if !s.pathEn p || x.safe then s else
  let s := rateChangeEnd p s
  if x.phase = .train then
    let s := s.modPath p (fun y => { y with dTrain := 2, iTrain := if y.mode = .pass then 2 else y.iTrain })
    steady (if x.retrain then 1 else 0) p s
  else if x.dTrain = 1 ∧ x.phase = .steady then s.modPath p (fun y => { y with dTrain := 2 })
  else s)

/-- TRAINING_TIMEOUT (R119) of a side in training. -/
def execTrainingTimeout (p : PathNo) (side : Side) := live (fun s =>
  let x := s.pathAt p
  let busy := match side with | .iSide => x.iTrain == 1 && x.mode == .pass | .dSide => x.dTrain == 1
  if s.pathEn p && busy then trainFail p (side == .iSide) s else s)

end Sys2Proof.Machine
end

