-- ==== Sys2Proof/Machine/Dispatch.lean ====
section
/-! DEFINITION. The one dispatch of the commands: one arm per constructor, each one direct call of its meaning. -/

namespace Sys2Proof.Machine

def exec (i : Instr) (s : State) : Host.Outcome State Fault Refusal :=
  match i with
  | .supplyGood t pins => Sys2Proof.Machine.execSupplyGood t pins s
  | .powerOnReset supply => Sys2Proof.Machine.execPowerOnReset supply s
  | .refclkCountComplete t => Sys2Proof.Machine.execRefclkCountComplete t s
  | .pllLock t fuses rootId selfTestOk => Sys2Proof.Machine.execPllLock t fuses rootId selfTestOk s
  | .hbmTrainingComplete t failed failedPcs => Sys2Proof.Machine.execHbmTrainingComplete t failed failedPcs s
  | .imageLoadComplete t a b => Sys2Proof.Machine.execImageLoadComplete t a b s
  | .firmwareStart t scan => Sys2Proof.Machine.execFirmwareStart t scan s
  | .beatFrame t cells => Sys2Proof.Machine.execBeatFrame t cells s
  | .localBeatEdge t => Sys2Proof.Machine.execLocalBeatEdge t s
  | .beatLoss t => Sys2Proof.Machine.execBeatLoss t s
  | .schedFire t => Sys2Proof.Machine.execSchedFire t s
  | .schedLoad o slot w0 w1 w2 w3 => Sys2Proof.Machine.execSchedLoad o slot w0 w1 w2 w3 s
  | .schedCancel o slot => Sys2Proof.Machine.execSchedCancel o slot s
  | .nop f param => Sys2Proof.Machine.execNop f param s
  | .stageApply f set retain eccBad => Sys2Proof.Machine.execStageApply f set retain eccBad s
  | .modeSet f p m => Sys2Proof.Machine.execModeSet f p m s
  | .captureOpen f st limit => Sys2Proof.Machine.execCaptureOpen f st limit s
  | .captureClose f st => Sys2Proof.Machine.execCaptureClose f st s
  | .windowOpen f pair ctx label => Sys2Proof.Machine.execWindowOpen f pair ctx label s
  | .windowClose f pair ctx => Sys2Proof.Machine.execWindowClose f pair ctx s
  | .spareSwap f ip inLane outLane => Sys2Proof.Machine.execSpareSwap f ip inLane outLane s
  | .rekeyStart f old new => Sys2Proof.Machine.execRekeyStart f old new s
  | .rekeyPause f old new => Sys2Proof.Machine.execRekeyPause f old new s
  | .rekeyResume f old new => Sys2Proof.Machine.execRekeyResume f old new s
  | .rekeyRetire f old new => Sys2Proof.Machine.execRekeyRetire f old new s
  | .adaptFreeze f scope => Sys2Proof.Machine.execAdaptFreeze f scope s
  | .adaptUnfreeze f scope => Sys2Proof.Machine.execAdaptUnfreeze f scope s
  | .logMark f value => Sys2Proof.Machine.execLogMark f value s
  | .stimStart f p generator => Sys2Proof.Machine.execStimStart f p generator s
  | .stimStop f p => Sys2Proof.Machine.execStimStop f p s
  | .triggerArm f p dirs => Sys2Proof.Machine.execTriggerArm f p dirs s
  | .triggerDisarm f p dirs => Sys2Proof.Machine.execTriggerDisarm f p dirs s
  | .markSend f ip value => Sys2Proof.Machine.execMarkSend f ip value s
  | .anchorMatch l pos levels => Sys2Proof.Machine.execAnchorMatch l pos levels s
  | .anchorMiss l => Sys2Proof.Machine.execAnchorMiss l s
  | .txShort l legs kind => Sys2Proof.Machine.execTxShort l legs kind s
  | .txShortRetest l clean => Sys2Proof.Machine.execTxShortRetest l clean s
  | .receiverDetection l foundP foundN => Sys2Proof.Machine.execReceiverDetection l foundP foundN s
  | .rxLos l => Sys2Proof.Machine.execRxLos l s
  | .cdrUnlock l => Sys2Proof.Machine.execCdrUnlock l s
  | .berIntervalEnd l samples => Sys2Proof.Machine.execBerIntervalEnd l samples s
  | .dspError l => Sys2Proof.Machine.execDspError l s
  | .adaptationUpdate l pos ctle eq req => Sys2Proof.Machine.execAdaptationUpdate l pos ctle eq req s
  | .pllUnlock t q => Sys2Proof.Machine.execPllUnlock t q s
  | .clockMonitor t q => Sys2Proof.Machine.execClockMonitor t q s
  | .calibration q good terms => Sys2Proof.Machine.execCalibration q good terms s
  | .quadConfigEcc q => Sys2Proof.Machine.execQuadConfigEcc q s
  | .laneDozeEntry l => Sys2Proof.Machine.execLaneDozeEntry l s
  | .laneDozeExit l => Sys2Proof.Machine.execLaneDozeExit l s
  | .mooredExitComplete l => Sys2Proof.Machine.execMooredExitComplete l s
  | .wskPoint l ctrl => Sys2Proof.Machine.execWskPoint l ctrl s
  | .wskRaster l ctrl => Sys2Proof.Machine.execWskRaster l ctrl s
  | .wskMonitor l ctrl => Sys2Proof.Machine.execWskMonitor l ctrl s
  | .wskIdle l ctrl => Sys2Proof.Machine.execWskIdle l ctrl s
  | .wskScanEnd l cause points => Sys2Proof.Machine.execWskScanEnd l cause points s
  | .marginingCommand e receiver cmd => Sys2Proof.Machine.execMarginingCommand e receiver cmd s
  | .adv l bits => Sys2Proof.Machine.execAdv l bits s
  | .conf l bits => Sys2Proof.Machine.execConf l bits s
  | .hold l bits => Sys2Proof.Machine.execHold l bits s
  | .holdTimeout ip => Sys2Proof.Machine.execHoldTimeout ip s
  | .negotiationEnd t ip => Sys2Proof.Machine.execNegotiationEnd t ip s
  | .partnerClassifyTimeout l kind => Sys2Proof.Machine.execPartnerClassifyTimeout l kind s
  | .trainingFrame l pos levels => Sys2Proof.Machine.execTrainingFrame l pos levels s
  | .precode ip mask => Sys2Proof.Machine.execPrecode ip mask s
  | .precodeAck ip mask => Sys2Proof.Machine.execPrecodeAck ip mask s
  | .precodeStart ip pos => Sys2Proof.Machine.execPrecodeStart ip pos s
  | .testStart ip rate => Sys2Proof.Machine.execTestStart ip rate s
  | .prbsTestEnd ip results => Sys2Proof.Machine.execPrbsTestEnd ip results s
  | .testResult ip rate mask => Sys2Proof.Machine.execTestResult ip rate mask s
  | .offer ip rate => Sys2Proof.Machine.execOffer ip rate s
  | .accept ip rate => Sys2Proof.Machine.execAccept ip rate s
  | .decline ip rate => Sys2Proof.Machine.execDecline ip rate s
  | .done ip rate mask => Sys2Proof.Machine.execDone ip rate mask s
  | .ladderStepTimeout ip => Sys2Proof.Machine.execLadderStepTimeout ip s
  | .rateChangeIdleEnd ip => Sys2Proof.Machine.execRateChangeIdleEnd ip s
  | .tsOrderedSet t e inverted ts => Sys2Proof.Machine.execTsOrderedSet t e inverted ts s
  | .eqEvaluationEnd t p side => Sys2Proof.Machine.execEqEvaluationEnd t p side s
  | .electricalIdleEntry p dir mask interval offset => Sys2Proof.Machine.execElectricalIdleEntry p dir mask interval offset s
  | .electricalIdleExit p dir mask interval offset => Sys2Proof.Machine.execElectricalIdleExit p dir mask interval offset s
  | .skpOrderedSet t p dir skp => Sys2Proof.Machine.execSkpOrderedSet t p dir skp s
  | .linkDown p => Sys2Proof.Machine.execLinkDown p s
  | .anPage p dir page resolved => Sys2Proof.Machine.execAnPage p dir page resolved s
  | .segmentTrainingComplete p side res => Sys2Proof.Machine.execSegmentTrainingComplete p side res s
  | .laneDrop t ip pos lost ber short => Sys2Proof.Machine.execLaneDrop t ip pos lost ber short s
  | .routeTagMismatch point seen => Sys2Proof.Machine.execRouteTagMismatch point seen s
  | .drainEnd t p => Sys2Proof.Machine.execDrainEnd t p s
  | .phase2Start t p => Sys2Proof.Machine.execPhase2Start t p s
  | .flitTxBoundary t ip pos bad corrected => Sys2Proof.Machine.execFlitTxBoundary t ip pos bad corrected s
  | .flitLost t ip pos sym line => Sys2Proof.Machine.execFlitLost t ip pos sym line s
  | .data t ip flit units => Sys2Proof.Machine.execData t ip flit units s
  | .lineEvent t ip flit => Sys2Proof.Machine.execLineEvent t ip flit s
  | .refuse t ip flit => Sys2Proof.Machine.execRefuse t ip flit s
  | .ack t ip flit => Sys2Proof.Machine.execAck t ip flit s
  | .nak t ip flit => Sys2Proof.Machine.execNak t ip flit s
  | .idle t ip flit => Sys2Proof.Machine.execIdle t ip flit s
  | .faultFlit t ip flit => Sys2Proof.Machine.execFaultFlit t ip flit s
  | .mark t ip flit => Sys2Proof.Machine.execMark t ip flit s
  | .beatEcho t ip flit => Sys2Proof.Machine.execBeatEcho t ip flit s
  | .tunnelStart t ip flit => Sys2Proof.Machine.execTunnelStart t ip flit s
  | .startAck t ip flit => Sys2Proof.Machine.execStartAck t ip flit s
  | .resume t ip flit => Sys2Proof.Machine.execResume t ip flit s
  | .resumeAck t ip flit => Sys2Proof.Machine.execResumeAck t ip flit s
  | .drop t ip flit => Sys2Proof.Machine.execDrop t ip flit s
  | .dropAck t ip flit => Sys2Proof.Machine.execDropAck t ip flit s
  | .swap t ip flit => Sys2Proof.Machine.execSwap t ip flit s
  | .swapAck t ip flit => Sys2Proof.Machine.execSwapAck t ip flit s
  | .swapRefuse t ip flit => Sys2Proof.Machine.execSwapRefuse t ip flit s
  | .ctrlRepeat t ip => Sys2Proof.Machine.execCtrlRepeat t ip s
  | .spareTimeout t ip => Sys2Proof.Machine.execSpareTimeout t ip s
  | .linkSilence t ip => Sys2Proof.Machine.execLinkSilence t ip s
  | .ackTimer t ip => Sys2Proof.Machine.execAckTimer t ip s
  | .gapTimer t ip => Sys2Proof.Machine.execGapTimer t ip s
  | .replayTimeout t ip seq => Sys2Proof.Machine.execReplayTimeout t ip seq s
  | .echoTimer t ip => Sys2Proof.Machine.execEchoTimer t ip s
  | .packTimeout t p => Sys2Proof.Machine.execPackTimeout t p s
  | .dToIReceive t p rx => Sys2Proof.Machine.execDToIReceive t p rx s
  | .playoutSlot t p read => Sys2Proof.Machine.execPlayoutSlot t p read s
  | .slip t p => Sys2Proof.Machine.execSlip t p s
  | .sealTimeout t st => Sys2Proof.Machine.execSealTimeout t st s
  | .rowTimeout t st => Sys2Proof.Machine.execRowTimeout t st s
  | .serviceSlot t slot => Sys2Proof.Machine.execServiceSlot t slot s
  | .hbmErrorWindow h parityErrors => Sys2Proof.Machine.execHbmErrorWindow h parityErrors s
  | .selfRefreshFail h => Sys2Proof.Machine.execSelfRefreshFail h s
  | .hbmTempHigh h celsius => Sys2Proof.Machine.execHbmTempHigh h celsius s
  | .hbmControllerEcc h => Sys2Proof.Machine.execHbmControllerEcc h s
  | .journalCommit t => Sys2Proof.Machine.execJournalCommit t s
  | .journalCommitComplete t okA okB => Sys2Proof.Machine.execJournalCommitComplete t okA okB s
  | .snapshot t => Sys2Proof.Machine.execSnapshot t s
  | .storeFlushTimeout t st => Sys2Proof.Machine.execStoreFlushTimeout t st s
  | .driveCommandComplete d what => Sys2Proof.Machine.execDriveCommandComplete d what s
  | .driveCmdTimeout d => Sys2Proof.Machine.execDriveCmdTimeout d s
  | .driveRemoved d => Sys2Proof.Machine.execDriveRemoved d s
  | .driveInserted info => Sys2Proof.Machine.execDriveInserted info s
  | .smartPoll d critical => Sys2Proof.Machine.execSmartPoll d critical s
  | .storePortEvent port ev => Sys2Proof.Machine.execStorePortEvent port ev s
  | .durableLag st => Sys2Proof.Machine.execDurableLag st s
  | .journalStore t => Sys2Proof.Machine.execJournalStore t s
  | .preload o st seq count => Sys2Proof.Machine.execPreload o st seq count s
  | .splRelease o st seq => Sys2Proof.Machine.execSplRelease o st seq s
  | .storeRelease o st seq => Sys2Proof.Machine.execStoreRelease o st seq s
  | .expectChunk t ip flit => Sys2Proof.Machine.execExpectChunk t ip flit s
  | .upload t ip flit => Sys2Proof.Machine.execUpload t ip flit s
  | .captureRelease t ip flit => Sys2Proof.Machine.execCaptureRelease t ip flit s
  | .statusReq t ip flit => Sys2Proof.Machine.execStatusReq t ip flit s
  | .verdictFormed t pair ctx => Sys2Proof.Machine.execVerdictFormed t pair ctx s
  | .verdictEccError pair => Sys2Proof.Machine.execVerdictEccError pair s
  | .trainSlot t rx => Sys2Proof.Machine.execTrainSlot t rx s
  | .trainRoundStart t => Sys2Proof.Machine.execTrainRoundStart t s
  | .trainSlotSend t readback => Sys2Proof.Machine.execTrainSlotSend t readback s
  | .masterSilent t => Sys2Proof.Machine.execMasterSilent t s
  | .peerAbsent id => Sys2Proof.Machine.execPeerAbsent id s
  | .graceExpiry t source => Sys2Proof.Machine.execGraceExpiry t source s
  | .safeStateExit t p => Sys2Proof.Machine.execSafeStateExit t p s
  | .fatalFlushEnd t => Sys2Proof.Machine.execFatalFlushEnd t s
  | .faultAck o value => Sys2Proof.Machine.execFaultAck o value s
  | .faultRecordPop o value => Sys2Proof.Machine.execFaultRecordPop o value s
  | .refclkLoss t => Sys2Proof.Machine.execRefclkLoss t s
  | .coreClock t => Sys2Proof.Machine.execCoreClock t s
  | .d2dCorrected die => Sys2Proof.Machine.execD2dCorrected die s
  | .d2dUncorrected die paths => Sys2Proof.Machine.execD2dUncorrected die paths s
  | .d2dLinkLoss die => Sys2Proof.Machine.execD2dLinkLoss die s
  | .datapathConfigEcc paths => Sys2Proof.Machine.execDatapathConfigEcc paths s
  | .datapathParity expected => Sys2Proof.Machine.execDatapathParity expected s
  | .spoolEcc => Sys2Proof.Machine.execSpoolEcc s
  | .logEcc => Sys2Proof.Machine.execLogEcc s
  | .ripcordEcc => Sys2Proof.Machine.execRipcordEcc s
  | .ripcordMismatch => Sys2Proof.Machine.execRipcordMismatch s
  | .classCopyCompare equal => Sys2Proof.Machine.execClassCopyCompare equal s
  | .ripcordSelftest ok => Sys2Proof.Machine.execRipcordSelftest ok s
  | .envIntegrity rights keyStore slotEcc index => Sys2Proof.Machine.execEnvIntegrity rights keyStore slotEcc index s
  | .tempSample t readings => Sys2Proof.Machine.execTempSample t readings s
  | .supplyLow supply tenthsMv => Sys2Proof.Machine.execSupplyLow supply tenthsMv s
  | .supplyHigh supply tenthsMv => Sys2Proof.Machine.execSupplyHigh supply tenthsMv s
  | .pinReadback line => Sys2Proof.Machine.execPinReadback line s
  | .beatLine => Sys2Proof.Machine.execBeatLine s
  | .trainLine => Sys2Proof.Machine.execTrainLine s
  | .avsLoop margin lowTarget highTarget readMv => Sys2Proof.Machine.execAvsLoop margin lowTarget highTarget readMv s
  | .clockSwitchRequest o value => Sys2Proof.Machine.execClockSwitchRequest o value s
  | .muxHang t d => Sys2Proof.Machine.execMuxHang t d s
  | .domainResetRelease t d => Sys2Proof.Machine.execDomainResetRelease t d s
  | .resetDevice t o value => Sys2Proof.Machine.execResetDevice t o value s
  | .resetGondola t o value => Sys2Proof.Machine.execResetGondola t o value s
  | .resetPath t o value => Sys2Proof.Machine.execResetPath t o value s
  | .resetDomain t o value => Sys2Proof.Machine.execResetDomain t o value s
  | .deviceResetEnd t => Sys2Proof.Machine.execDeviceResetEnd t s
  | .dbgRstNThreshold t => Sys2Proof.Machine.execDbgRstNThreshold t s
  | .stageAppend o set addr value mask => Sys2Proof.Machine.execStageAppend o set addr value mask s
  | .stageClear o set => Sys2Proof.Machine.execStageClear o set s
  | .stagePathSwitch t p => Sys2Proof.Machine.execStagePathSwitch t p s
  | .stageHeldRelease t p => Sys2Proof.Machine.execStageHeldRelease t p s
  | .stageHeldRetry t => Sys2Proof.Machine.execStageHeldRetry t s
  | .registerWrite o addr value => Sys2Proof.Machine.execRegisterWrite o addr value s
  | .wideRegisterRead o addr => Sys2Proof.Machine.execWideRegisterRead o addr s
  | .logRead o value => Sys2Proof.Machine.execLogRead o value s
  | .imageUpdateStart t o value => Sys2Proof.Machine.execImageUpdateStart t o value s
  | .imageData t m msg readback busError => Sys2Proof.Machine.execImageData t m msg readback busError s
  | .imageUpdateTimeout t => Sys2Proof.Machine.execImageUpdateTimeout t s
  | .keyLoad o index => Sys2Proof.Machine.execKeyLoad o index s
  | .keyGenerate o index => Sys2Proof.Machine.execKeyGenerate o index s
  | .keyBind o index slot => Sys2Proof.Machine.execKeyBind o index slot s
  | .keyUnbind o slot => Sys2Proof.Machine.execKeyUnbind o slot s
  | .keyClear o index => Sys2Proof.Machine.execKeyClear o index s
  | .autoRekey core index => Sys2Proof.Machine.execAutoRekey core index s
  | .envMemRead master addr => Sys2Proof.Machine.execEnvMemRead master addr s
  | .envMemWrite master addr words => Sys2Proof.Machine.execEnvMemWrite master addr words s
  | .mailboxPost t => Sys2Proof.Machine.execMailboxPost t s
  | .mailboxPop t => Sys2Proof.Machine.execMailboxPop t s
  | .mailboxFlit t ip flit => Sys2Proof.Machine.execMailboxFlit t ip flit s
  | .regRead t m msg => Sys2Proof.Machine.execRegRead t m msg s
  | .regWrite t m msg => Sys2Proof.Machine.execRegWrite t m msg s
  | .clockSwitch t m msg => Sys2Proof.Machine.execClockSwitch t m msg s
  | .hbmRetire t m msg => Sys2Proof.Machine.execHbmRetire t m msg s
  | .version t m msg => Sys2Proof.Machine.execVersion t m msg s
  | .patchChunk t m msg => Sys2Proof.Machine.execPatchChunk t m msg s
  | .patchCommit t m msg => Sys2Proof.Machine.execPatchCommit t m msg s
  | .patchClear t m msg => Sys2Proof.Machine.execPatchClear t m msg s
  | .gonPatch => Sys2Proof.Machine.execGonPatch s
  | .gonEcc err => Sys2Proof.Machine.execGonEcc err s
  | .watchdogExpiry t core doubleFault => Sys2Proof.Machine.execWatchdogExpiry t core doubleFault s
  | .watchdogRestart o value => Sys2Proof.Machine.execWatchdogRestart o value s
  | .quietDetect t => Sys2Proof.Machine.execQuietDetect t s
  | .lockAcquire t o n => Sys2Proof.Machine.execLockAcquire t o n s
  | .lockRelease o n value => Sys2Proof.Machine.execLockRelease o n value s
  | .lockTimeout t n => Sys2Proof.Machine.execLockTimeout t n s
  | .mgmtAddr bytes pec => Sys2Proof.Machine.execMgmtAddr bytes pec s
  | .mgmtWrite bytes pec => Sys2Proof.Machine.execMgmtWrite bytes pec s
  | .mgmtRead pec count => Sys2Proof.Machine.execMgmtRead pec count s
  | .mgmtStatus pec => Sys2Proof.Machine.execMgmtStatus pec s
  | .rlen bytes pec => Sys2Proof.Machine.execRlen bytes pec s
  | .alertResponse => Sys2Proof.Machine.execAlertResponse s
  | .entdaa addr => Sys2Proof.Machine.execEntdaa addr s
  | .setdasa addr => Sys2Proof.Machine.execSetdasa addr s
  | .rstdaa => Sys2Proof.Machine.execRstdaa s
  | .enec => Sys2Proof.Machine.execEnec s
  | .disec => Sys2Proof.Machine.execDisec s
  | .getpid => Sys2Proof.Machine.execGetpid s
  | .getbcr => Sys2Proof.Machine.execGetbcr s
  | .getdcr => Sys2Proof.Machine.execGetdcr s
  | .getstatus => Sys2Proof.Machine.execGetstatus s
  | .mgmtLine t => Sys2Proof.Machine.execMgmtLine t s
  | .ibiRepeat t accepted => Sys2Proof.Machine.execIbiRepeat t accepted s
  | .ident t index => Sys2Proof.Machine.execIdent t index s
  | .challenge t arg => Sys2Proof.Machine.execChallenge t arg s
  | .respond t mac => Sys2Proof.Machine.execRespond t mac s
  | .endSession t => Sys2Proof.Machine.execEndSession t s
  | .dbgRegRead t addr => Sys2Proof.Machine.execDbgRegRead t addr s
  | .dbgRegWrite t addr value => Sys2Proof.Machine.execDbgRegWrite t addr value s
  | .memRead t hi lo => Sys2Proof.Machine.execMemRead t hi lo s
  | .memWrite t hi lo words => Sys2Proof.Machine.execMemWrite t hi lo words s
  | .gmemRead t mem addr => Sys2Proof.Machine.execGmemRead t mem addr s
  | .gmemWrite t mem addr words => Sys2Proof.Machine.execGmemWrite t mem addr words s
  | .dbgHalt t arg => Sys2Proof.Machine.execDbgHalt t arg s
  | .dbgResume t arg => Sys2Proof.Machine.execDbgResume t arg s
  | .dbgStep t arg => Sys2Proof.Machine.execDbgStep t arg s
  | .dbgHaltOnStart t arg => Sys2Proof.Machine.execDbgHaltOnStart t arg s
  | .coreRead t arg => Sys2Proof.Machine.execCoreRead t arg s
  | .coreWrite t arg hi lo => Sys2Proof.Machine.execCoreWrite t arg hi lo s
  | .bkptEnable t arg addr => Sys2Proof.Machine.execBkptEnable t arg addr s
  | .bkptDisable t arg addr => Sys2Proof.Machine.execBkptDisable t arg addr s
  | .breakpointHit core unit => Sys2Proof.Machine.execBreakpointHit core unit s
  | .dbgFrameAbandon => Sys2Proof.Machine.execDbgFrameAbandon s
  | .dbgCommandTimeout => Sys2Proof.Machine.execDbgCommandTimeout s
  | .challengeVoid t => Sys2Proof.Machine.execChallengeVoid t s
  | .lockoutEnd t => Sys2Proof.Machine.execLockoutEnd t s
  | .dbgSessionIdle t => Sys2Proof.Machine.execDbgSessionIdle t s
  | .cdrLock l => Sys2Proof.Machine.execCdrLock l s
  | .rxLosEnd l => Sys2Proof.Machine.execRxLosEnd l s
  | .blockLockLoss l => Sys2Proof.Machine.execBlockLockLoss l s
  | .blockLockAcquired l => Sys2Proof.Machine.execBlockLockAcquired l s
  | .quadPllRelock q => Sys2Proof.Machine.execQuadPllRelock q s
  | .supplyLowEnd supply => Sys2Proof.Machine.execSupplyLowEnd supply s
  | .lineBackInRange line => Sys2Proof.Machine.execLineBackInRange line s
  | .mgmtLinesHigh t => Sys2Proof.Machine.execMgmtLinesHigh t s
  | .hbmTempHighEnd h celsius => Sys2Proof.Machine.execHbmTempHighEnd h celsius s
  | .storeLinkUp port drives => Sys2Proof.Machine.execStoreLinkUp port drives s
  | .linkActive t p => Sys2Proof.Machine.execLinkActive t p s
  | .trainingTimeout p side => Sys2Proof.Machine.execTrainingTimeout p side s
  | .flitMalformed t ip flit => Sys2Proof.Machine.execFlitMalformed t ip flit s
  | .schedCtrlFlit t ip flit => Sys2Proof.Machine.execSchedCtrlFlit t ip flit s
  | .dbgBadFrame t unit lows => Sys2Proof.Machine.execDbgBadFrame t unit lows s
  | .mgmtBadTransfer => Sys2Proof.Machine.execMgmtBadTransfer s
  | .unsupportedCcc ccc => Sys2Proof.Machine.execUnsupportedCcc ccc s
  | .coreTimer core => Sys2Proof.Machine.execCoreTimer core s
  | .fatalPortTimeout t => Sys2Proof.Machine.execFatalPortTimeout t s

end Sys2Proof.Machine
end

