-- ==== Sys2Proof/Machine/Layout.lean ====
section
/-! DEFINITION. Sizing and layout rules that fix numbers and no event: lanes that a tunnel needs (R160-R162), HBM slots and power
(R186, R187), the retransmission time (R206), Reel macros (R210), coasting rounds (R340), balls and nets (R556-R560), beat bus
delays (R590). -/

namespace Sys2Proof.Machine

/-! ### Sizing -/

/-- Division rounded up. -/
def ceilDiv (a b : Nat) : Nat := (a + b - 1) / b

/-- Tunnel capacity C of one active I lane in units of 10 Mb/s (R160), of the I-lane rate in Gb/s. -/
def tunnelCapacity : Nat → Nat
  | 224 => 19700
  | 112 => 9850
  | 56 => 4925
  | _ => 0

/-- The need of a Guard-family path whose D port has width `w` and line rate `r` in units of 10 Mb/s, at an I-lane rate in Gb/s: 0
where it exceeds 16 (R161). -/
def needLanes (w r iRate : Nat) : Nat :=
  let n := ceilDiv (w * r) (tunnelCapacity iRate)
  if 16 < n then 0 else n

/-- HBM slots of an item with a payload rate in MB/s (R186). -/
def slotsNeeded (mbps : Nat) : Nat := ceilDiv (mbps * 4096 * 100) (4000 * 1171875)

/-- Symbol rates that R187 names, in MBd, with the power of a lane in Run in mW. -/
def lanePower : List (Nat × Nat) :=
  [(8000, 200), (16000, 260), (28000, 340), (32000, 380), (53125, 480), (56000, 500), (64000, 550), (106250, 750), (112000, 780)]

/-- What the power budget of an image counts (R187). -/
structure PowerItems where
  /-- Some path allows Observe, Verdict, Drive or Fan-out. -/
  store : Bool
  /-- Lanes in Run with the power of each in mW, lanes in Doze and in Moored. -/
  run : List (Nat × Nat)
  doze : Nat
  moored : Nat
  /-- Paths in Pass, in the Guard or Drive family with Fan-out slots, with a verdict pair, and in Survey. -/
  pass : Nat
  family : Nat
  pairs : Nat
  survey : Nat
  slots : Nat

/-- The power budget in mW (R187). -/
def powerBudget (p : PowerItems) : Nat :=
  24000 + (if p.store then 5000 else 0) + p.run.foldl (fun a x => a + x.1 * x.2) 0 + 100 * p.doze + 30 * p.moored
    + 200 * p.pass + 900 * p.family + 600 * p.pairs + 300 * p.survey + 340 * p.slots

/-- The default replay_ns of a hop round trip in ns and a lane rate in Gb/s (R206). -/
def replayNs (rtt gbps : Nat) : Nat := ceilDiv (rtt * gbps + 2 * 2304 + 64 * gbps) gbps

/-- coast_beats of a beat period in ns (R340). -/
def coastBeats (period : Nat) : Nat := ceilDiv 256000 period

/-- A ballast in ns is valid (R18): at least the hop round trip, two flit times on one lane, and 48 ns. -/
def ballastValid (b rtt gbps : Nat) : Bool := decide (rtt * gbps + 2 * 2304 + 48 * gbps ≤ b * gbps)

/-- A member's beat delay of R48 in ns is possible on its bus (R590). -/
def beatDelay (target flight : Nat) : Option Nat :=
  if 1310 + flight ≤ target ∧ target - 1310 - flight ≤ 255 then some (target - 1310 - flight) else none

/-! ### Balls -/

/-- The letters L(1) to L(19) of row names (R556). -/
def rowLetters : List String := ["A", "B", "C", "D", "E", "F", "G", "H", "J", "K", "L", "M", "N", "P", "T", "U", "V", "W", "Y"]

/-- The name of row `i`, 1 to 74 (R556). -/
def rowName (i : Nat) : String :=
  let l (k : Nat) : String := rowLetters.getD (k - 1) ""
  if i ≤ 19 then l i else l ((i - 20) / 19 + 1) ++ l ((i - 20) % 19 + 1)

/-- Row and column of the balls TX_P, TX_N, RX_P and RX_N of data lane `l` (R557). -/
def laneBalls (l : Nat) : List (Nat × Nat) :=
  let n := l % 64
  let tx := 6 + 4 * (n % 16)
  let c := if l < 64 then (2 + 4 * (n / 16), 3 + 4 * (n / 16)) else (73 - 4 * (n / 16), 72 - 4 * (n / 16))
  [(tx, c.1), (tx, c.2), (tx + 2, c.1), (tx + 2, c.2)]

/-- Row and column of the balls TX_P, TX_N, RX_P and RX_N of store lane `s` (R558). -/
def storeBalls (s : Nat) : List (Nat × Nat) := [(2, 22 + 3 * s), (2, 23 + 3 * s), (4, 22 + 3 * s), (4, 23 + 3 * s)]

/-- The signals of rows CN, CP, CT and CU by column (R559). -/
def otherSignals : List (Nat × Nat × List String) :=
  [(70, 36, ["REFCLK_P", "REFCLK_N"]), (70, 40, ["VDD_CORE_SNS", "VSS_CORE_SNS"]), (71, 30, ["BEAT_P", "BEAT_N"]),
   (71, 33, ["TRAIN_P", "TRAIN_N"]), (72, 30, ["MGMT_SCL", "MGMT_SDA"]), (72, 33, ["AVS_CLK", "AVS_MDATA", "AVS_SDATA"]),
   (73, 30, ["DBG_RST_N", "FAULT_N", "ALERT_N"]), (71, 40, nvm "A"), (72, 40, nvm "B"),
   (73, 34, ["CLK_STAB0", "CLK_STAB1", "REFSEL", "TRAIN_ID0", "TRAIN_ID1", "TRAIN_ID2", "MGMT_ADDR0", "MGMT_ADDR1",
             "MGMT_MODE", "NVM_MODE"])]
where
  /-- The twelve balls of an NVM bus from column 40. -/
  nvm (x : String) : List String :=
    ["CLK", "CS_N", "DQS", "DQ0", "DQ1", "DQ2", "DQ3", "DQ4", "DQ5", "DQ6", "DQ7", "RESET_N"].map (fun n => "NVM_" ++ x ++ "_" ++ n)

/-- The signal of the ball at row `i`, column `c`, of those of R559. -/
def otherSignal (i c : Nat) : Option String :=
  otherSignals.findSome? (fun g => if g.1 = i ∧ g.2.1 ≤ c then g.2.2[c - g.2.1]? else none)

/-- A signal ball (R557-R559). -/
def isSignal (i c : Nat) : Bool :=
  (List.range 128).any (fun l => (laneBalls l).contains (i, c)) || (List.range 16).any (fun s => (storeBalls s).contains (i, c))
    || (otherSignal i c).isSome

/-- The nets of supply and ground balls. -/
inductive Net where
  | vss | core | dsp | ana | txh | hbm | vddq | vpp | io | aon
deriving DecidableEq, Repr

/-- The net of a supply or ground ball (R560). -/
def ballNet (i c : Nat) : Net :=
  let between (a b x : Nat) : Bool := decide (a ≤ x) && decide (x ≤ b)
  let board (n : Net) : Net := if (i + c) % 2 = 0 then n else .vss
  let side (a b : Nat) : Bool := between a b c || between (75 - b) (75 - a) c
  if i = 1 ∨ i = 74 ∨ c = 1 ∨ c = 74 then .vss
  else if i ≤ 4 then .vss
  else if i ≤ 69 then
    if side 2 16 then .vss
    else if side 17 17 then (if i % 2 = 1 then .txh else .vss)
    else if side 18 18 then .ana
    else if side 19 20 then .dsp
    else if side 21 26 then board (if i ≤ 8 then .vpp else if i ≤ 38 then .hbm else .vddq)
    else board .core
  else if i = 70 ∧ between 44 59 c then .io
  else if i = 73 ∧ between 45 48 c then .aon
  else .vss

end Sys2Proof.Machine
end

