-- ==== Sys2Proof/Machine/Pins.lean ====
section
/-! DEFINITION. The state of the pins, as the state of the device gives it (R103, R111, R385, R562). -/

namespace Sys2Proof.Machine

/-- A transmitter's pins. -/
inductive TxPin where
  | highZ | idle | active
deriving DecidableEq, Repr

/-- A bus or an output pin. -/
inductive BusPin where
  | highZ | released | idle | running
deriving DecidableEq, Repr

/-- In Fatal only the I ports whose link runs keep their transmitters (R371, R562). -/
def State.fatalRuns (s : State) (l : Nat) : Bool :=
  decide (l < 64) && (match s.portOfLane l with | some (ip, _) => (s.portAt ip).up | none => false)

/-- Lane `l`'s TX_P/N (R97, R101, R103, R111, R562): in Fatal a store lane is idle until the store host stops. -/
def State.txPin (s : State) (l : Nat) : TxPin :=
  let x := s.laneAt l
  if s.inReset || (s.pwr.txHiZ && decide (l < 128)) || x.txHiZ || x.fuseBad then .highZ
  else if s.pwr.fatal && decide (128 ≤ l) then (if s.pwr.fatalDone then .highZ else .idle)
  else if s.pwr.fatal && !s.fatalRuns l then .idle
  else match x.st with
    | .unassigned => .highZ
    | .run => if x.txIdle || (s.quadAt (l / 4)).cfgEcc then .idle else .active
    | _ => .idle

/-- Lane `l`'s receiver is terminated (R103, R128, R176, R562): in Fatal every lane in use is. -/
def State.rxTerminated (s : State) (l : Nat) : Bool :=
  !s.inReset && (s.laneAt l).st != .unassigned && !(s.laneAt l).fuseBad && (s.pwr.fatal || !(s.ltrAt l).opened)

/-- BEAT_P/N are received (R39, R562); they are never driven. -/
def State.beatReceives (s : State) : Bool := !s.inReset

/-- TRAIN_P/N are driven in cell `c` of slot `m` (R334, R562): in cells 12 to 195 of the device's own slot. -/
def State.trainDrives (s : State) (m c : Nat) : Bool :=
  !s.inReset && m == s.trainId && decide (12 ≤ c) && decide (c ≤ 195)

/-- MGMT_SCL and MGMT_SDA (R493, R562). -/
def State.mgmtPins (s : State) : BusPin :=
  if s.inReset || s.gon.mgmt.stuck then .released else if s.mgmtMode = 3 then .highZ else .running

/-- AVS_CLK and AVS_MDATA (R562). -/
def State.avsPins (s : State) : BusPin := if s.inReset then .released else if s.pwr.fatal then .idle else .running

/-- The pins of NVM chip `c` but NVM_x_RESET_N (R562): driven during an update of it, or an image load. -/
def State.nvmPins (s : State) (c : Nat) : BusPin :=
  if s.inReset then .released
  else if s.pwr.fatal then .idle
  else if (s.gon.upd.running && s.gon.upd.chip == c) || !s.stepDone 8 then .running
  else .idle

/-- NVM_x_RESET_N of chip `c` is driven, and high (R562): low in the first 10 µs of an update; released in reset. -/
def State.nvmReset (s : State) (c : Nat) : Option Bool :=
  if s.inReset then none
  else some (!(s.gon.upd.running && s.gon.upd.chip == c && !s.pwr.fatal && decide (s.now < s.gon.upd.since + 10 * us)))

/-- DBG_RST_N may be driven in read cells (R513, R562). -/
def State.dbgMayDrive (s : State) : Bool := s.dbgServed

/-- FAULT_N and ALERT_N are low (R368, R369, R562). -/
def State.outLow (s : State) : Bool × Bool := (s.flt.faultN, s.flt.alertN)

end Sys2Proof.Machine
end

