-- ==== Sys2Proof/Safety.lean ====
section
/-! DEFINITION. The terms in which statements about the block are made: what a safe state is, that a command completes, that a
source was raised, that an entry stands in the Logbook, and that an action may fire. -/

namespace Sys2Proof.Machine

/-! ### Completion -/

/-- The command answers a next state, and `P` holds of it. -/
def completes (c : Instr) (s : State) (P : State → Prop) : Prop := ∃ u, exec c s = .next u ∧ P u

/-- A run is safe as far as its next step goes: the front command is neither a fault nor a refusal. -/
def goesOn (s : State) : Prop := ∃ u, step s = .next u

/-! ### The pins -/

/-- FAULT_N and ALERT_N stand as their conditions give (R368, R369, R500). -/
def State.pinsFollow (s : State) : Bool := s.flt.faultN == s.faultLow && s.flt.alertN == s.alertLow

/-! ### Sources -/

/-- A source is IDLE, without a condition, and its class lies above Note: its next detection is a raising that R358 shows. -/
def State.armed (s : State) (src : Nat) : Bool :=
  !neverRaised src && (s.srcAt src).st == 0 && !(s.srcAt src).cond && decide (0 < max (srcMin src) (s.classReg src))

/-- `t` holds source `src` as a fresh raising out of `s` leaves it (R355, R358): ACTIVE for a condition, LATCHED for an event, at
its class. -/
def State.raisedIn (s : State) (src : Nat) (t : State) : Prop :=
  (t.srcAt src).st = (if isCondition src then 1 else 2) ∧ (t.srcAt src).cls = max (srcMin src) (s.classReg src)

/-- No path is in LADDER, where a safe state stops the ladder and its lanes look for anchors anew (R153, R364). -/
def State.noLadder (s : State) : Bool := paths.all (fun n => (s.pathAt n).phase != .ladder)

/-! ### The Logbook -/

/-- An entry with this content stands in the ring (R411). -/
def State.logged (t : State) (kind : Nat) (o : Origin) (target a b : Nat) : Prop :=
  ∃ e ∈ t.log.ring, e.kind = BitVec.ofNat 8 kind ∧ e.origin = BitVec.ofNat 8 o.code ∧ e.target = BitVec.ofNat 32 target ∧
    e.a = BitVec.ofNat 32 a ∧ e.b = BitVec.ofNat 32 b

/-- There is normal room for `n` entries more (R415). -/
def State.room (s : State) (n : Nat) : Bool := decide (s.log.used + n ≤ ringSize - ringReserve)

/-- Nothing waits to be settled when a command has ended, up to 64 entries of the Logbook: no LOST entry is due, no condition of the
Logbook or of the quiet detector holds, the stream is not behind, and no LOG record fills up (R410, R415, R418, R484). -/
def State.calm (s : State) : Bool :=
  !(s.srcAt (srcGlobal 57)).cond && !s.log.lostDue && !(s.srcAt (srcGlobal 70)).cond && decide (s.log.used + 64 ≤ 16384)
    && decide (s.log.used + 64 < s.log.recorded + 125)

/-- What is settled when a command has ended stops no ladder (R153, R364, R371). -/
def State.ladderKeeps (s : State) : Bool := s.noLadder || s.calm

/-! ### Actions and writes -/

/-- An action fires and is not refused (R50, R61, R65, R66): LOCKED and not Fatal, allowed by the train, with room for its
entries. -/
def State.fires (s : State) (f : Fire) (a : Act) : Bool :=
  s.firing && s.trainAllows f.train && (s.actRefusal a).isNone &&
    s.roomFor (retireEntry f.origin f.slot.val (a.w2 f.train) 0 f.late 0 :: s.actEntries f.origin f.late s.now a)

/-- An action that fired waits for the next boundary of its path, as it fired, or has taken effect, so that `P` holds (R62). -/
def State.waitsOr (s : State) (f : Fire) (a : Act) (u : State) (P : Prop) : Prop :=
  match s.boundaryOf a with
  | some p => u.stg.switch.get [] p = s.stg.switch.get [] p ++ [.act a f.origin f.late s.now]
  | none => P

/-- A direct write of an origin is accepted (R400, R414, R488): the device has a clock, no rule refuses it, and its entry finds
room. -/
def State.writable (s : State) (o : Origin) (a v : Nat) : Bool :=
  !s.unclocked && !s.fatalRefuses o && !(o == .debug && a == 0x60010) && !s.writeRefused o false a v && s.room 1

/-! ### Links -/

/-- The header and the payload of a flit that a lane of port `ip` receives whole (R191). -/
def State.flitHead (s : State) (ip : Nat) (f : RxFlit) : Option (Hdr × List Byte) :=
  match s.readFlit ip f with
  | .lost _ => none
  | .got hw pl _ => some (hdrOf hw, pl)

/-- A flit is received on the running link of path `n` (R191, R194, R197): its lane is one whose flits the receiver uses, it passes
the checks, and nothing that arrived before waits for a decision. -/
def State.hearsFlit (s : State) (ip : Nat) (f : RxFlit) (n : Nat) (ok : Hdr → List Byte → Bool) : Bool :=
  let l := (s.portAt ip).link
  !s.still && s.linkPath ip == some n && s.hears ip f.pos.val
    && (match s.flitHead ip f with | none => false | some x => s.flitOk n false x.1 x.2 && ok x.1 x.2)
    && l.cells.isEmpty && l.got.isEmpty && l.refuse.isEmpty && !s.pwr.fatalDone

/-- A received flit is the next in sequence, of a type and class, and the path has a cell for it (R199, R202, R212). -/
def State.receivesNext (s : State) (ip : Nat) (f : RxFlit) (n typ cls : Nat) : Bool :=
  s.hearsFlit ip f n (fun h pl => ofType typ cls h pl && h.seq == (s.portAt ip).link.ack + 1)
    && decide (1 ≤ s.toDCells n)

/-! ### The service frame -/

/-- Slot `i` has not served yet in the service frame of instant `t` (R255). -/
def State.slotFree (s : State) (t i : Nat) : Bool :=
  !(s.spl.frame == frameOf (max s.now t) && s.spl.frameUsed.getLsbD i)

/-! ### Registers -/

/-- A register that is no command: a direct write of it only stores its direct fields (R400, R526). -/
def plainAddr (a : Nat) : Bool :=
  !([0x20, 0x3C, 0x60, 0x10110, 0x20800, 0x20840, 0x20858, 0x30020, 0x50000, 0x60010, 0x60408, 0x70010, 0x70040, 0x70C64,
    0x500000].contains a)
    && !words a 0x60040 40 && !words a 0x70400 16 && !words a 0x71000 64 && !((laneOfAddr a).isSome && a % 0x4000 == 0x50)

/-- The word that a direct write of a plain register leaves (R400, R401). -/
def State.stored (s : State) (a v : Nat) : Word := masked (s.reg a) (BitVec.ofNat 32 v) (BitVec.ofNat 32 (diMask a))

/-! ### The services of device firmware -/

/-- Device firmware serves the request `msg` of service `sv` at the front of mailbox `m` (R497-R499). -/
def State.serves (s : State) (m : Nat) (msg : MbMsg) (sv : Nat) : Bool :=
  !s.still && s.gon.fwReady && (s.mbAt m).inQ.head? == some msg && decide ((s.mbAt m).outQ.length < 8) && msg.kind == 0
    && !(s.gon.muxAsk.any (fun a => a.1 == m)) && msg.service.toNat == sv

/-- The state in which a service runs: the request has left its queue (R497). -/
def State.serving (s : State) (t m : Nat) : State := (s.at t).modMb m (fun b => { b with inQ := b.inQ.drop 1 })

/-- The request has left its queue, and its response stands at the end of the outbound queue of a mailbox that exists (R494, R495,
R497). -/
def State.answered (s : State) (m : Nat) (msg : MbMsg) (status : Nat) (body : List Byte) (u : State) : Prop :=
  (u.mbAt m).inQ = (s.mbAt m).inQ.drop 1 ∧
  (m = 0 ∨ (s.linkPath (m - 1)).isSome = true →
    (u.mbAt m).outQ = (s.mbAt m).outQ ++ [fwMsg msg.service 1 msg.tag status body])

/-! ### The management bus and the debug wire -/

/-- A transfer of the management bus reaches the device (R490, R501). -/
def State.transfers (s : State) (pec : Option Bool) : Bool := s.mgmtUp && s.pecOk pec

/-- The state in which a transfer of the management bus is under way (R438, R491). -/
def State.onBus (s : State) : State := s.modMgmt (fun m => { m with busy := true })

/-- The device is on an I3C bus and answers its commands (R489). -/
def State.onI3c (s : State) : Bool := s.mgmtUp && s.mgmtMode == 0

/-- The bus interface acknowledges with these bytes. -/
def State.replies (u : State) (ok : Bool) (bs : List Byte) : Prop := u.gon.mgmt.acked = ok ∧ u.gon.mgmt.answer = bs

/-- A debug frame of a level is carried out (R511-R513): it is served, the session has the level, and there is room for `n`
entries. -/
def State.framed (s : State) (level n : Nat) : Bool := s.dbgServed && decide (level ≤ s.dbgLevel) && s.room n

/-- The state in which a debug command is carried out: its entry is committed (R524). -/
def State.commanded (s : State) (t : Nat) (q : DbgReq) : State :=
  let s := (s.at t).modDbg (fun d => { d with lastFrame := max t s.now, abandoned := false })
  s.logPut (s.debugEntry q.code 1 q.hi q.a q.b)

/-- The debug wire answers with a status and data words (R510, R511). -/
def State.tells (u : State) (status : Nat) (ws : List Word) : Prop := u.dbg.status = BitVec.ofNat 8 status ∧ u.dbg.answer = ws

/-! ### Frames -/

/-- The queue, the registers, the schedule table and the stage sets stand as they stood. -/
def State.keepsProgram (s u : State) : Prop := u.pending = s.pending ∧ u.regs = s.regs ∧ u.sched = s.sched ∧ u.stg = s.stg

/-- The clock domains, the quads, Reel, the store and Envelope stand as they stood. -/
def State.keepsUnits (s u : State) : Prop :=
  u.dom = s.dom ∧ u.quad = s.quad ∧ u.reel = s.reel ∧ u.sto = s.sto ∧ u.env = s.env

/-- Beat time stands as it stood; the pre-beat number of a time stamp may have been taken (R5). -/
def State.keepsBeat (s u : State) : Prop := ∃ n c, u.beat = { s.beat with preNum := n, preClk := c }

/-- The lanes that meet `f` stand as they stood, but that a safe state may have put a transmitter in electrical idle and stopped a
ladder (R363). -/
def State.keepsLanes (s u : State) (f : Nat → Prop) : Prop :=
  ∀ l, f l → ∃ i a e tx rx, u.laneAt l =
    { s.laneAt l with txIdle := i, anchor := a, eligible := e, precTx := tx, precRx := rx }

/-- Spool space outside the streams and Gondola's memories hold the bytes that they held. -/
def State.keepsMemory (s u : State) : Prop :=
  u.spl.mem = s.spl.mem ∧ u.gon.code = s.gon.code ∧ u.gon.data = s.gon.data ∧ u.gon.patch = s.gon.patch

/-- The commands of the monitors, of Ripcord, of Gondola's cores and locks, of the bus and debug interfaces, that change no register,
lane, memory or unit of the datapath beyond what Ripcord's reactions do. -/
def sparing : Instr → Bool
  | .spoolEcc | .logEcc | .ripcordEcc | .ripcordMismatch | .classCopyCompare _ | .ripcordSelftest _ | .beatLine | .trainLine
  | .datapathConfigEcc _ | .datapathParity _ | .pinReadback _ | .lineBackInRange _ | .refclkLoss _ | .coreClock _ | .d2dCorrected _
  | .d2dUncorrected _ _ | .d2dLinkLoss _ | .supplyLow _ _ | .supplyLowEnd _ | .tempSample _ _ | .avsLoop _ _ _ _ | .graceExpiry _ _
  | .faultAck _ _ | .faultRecordPop _ _ | .verdictEccError _ | .hbmTempHigh _ _ | .hbmTempHighEnd _ _ | .hbmControllerEcc _
  | .selfRefreshFail _ | .durableLag _ | .gonEcc _ | .watchdogExpiry _ _ _ | .watchdogRestart _ _ | .quietDetect _ | .coreTimer _
  | .lockAcquire _ _ _ | .lockTimeout _ _ | .mailboxPost _ | .mailboxPop _ | .imageUpdateTimeout _ | .mgmtStatus _ | .rlen _ _
  | .alertResponse | .mgmtBadTransfer | .entdaa _ | .setdasa _ | .rstdaa | .enec | .disec | .getpid | .getbcr | .getdcr | .getstatus
  | .unsupportedCcc _ | .mgmtLine _ | .mgmtLinesHigh _ | .ibiRepeat _ _ | .ident _ _ | .challenge _ _ | .respond _ _ | .endSession _
  | .memRead _ _ _ | .gmemRead _ _ _ | .dbgHalt _ _ | .dbgResume _ _ | .dbgStep _ _ | .dbgHaltOnStart _ _ | .coreRead _ _
  | .coreWrite _ _ _ _ | .bkptEnable _ _ _ | .bkptDisable _ _ _ | .breakpointHit _ _ | .dbgFrameAbandon | .dbgCommandTimeout
  | .dbgBadFrame _ _ _ | .challengeVoid _ | .lockoutEnd _ | .dbgSessionIdle _ => true
  | _ => false

/-- The lane of an event of one lane's receiver, transmitter or lane state. -/
def laneOf : Instr → Option Nat
  | .anchorMiss l => some l.val
  | .txShort l _ _ | .txShortRetest l _ | .rxLos l | .rxLosEnd l | .cdrUnlock l | .cdrLock l | .blockLockLoss l | .blockLockAcquired l
  | .berIntervalEnd l _ | .dspError l | .adaptationUpdate l .. | .laneDozeEntry l | .laneDozeExit l => some l.val
  | _ => none

/-- The commands of the train unit. -/
def ofTrain : Instr → Bool
  | .trainSlot _ _ | .trainRoundStart _ | .trainSlotSend _ _ | .masterSilent _ | .peerAbsent _ => true
  | _ => false

end Sys2Proof.Machine
end

