-- ==== Sys2Proof/Certificates/Slice0/Obligations.lean ====
section
/-! DEFINITION. The statements about the block that the provers prove, each with the rules of spec/ it follows. `completes c s P` says
that the command `c` answers a next state of which `P` holds (Sys2Proof/Safety.lean). -/

open Sys2Proof Sys2Proof.Machine


/-! ### Power-on and start (12, 14) -/

/-- SUPPLY_GOOD, POWER_ON_RESET, REFCLK_COUNT_COMPLETE and PLL_LOCK complete (R433, R436, R437, R564). Supply good leaves step 1
and samples the straps; power-on reset clears every register, the Logbook, the schedule and the sources; 2,048 REFCLK cycles end
the reset with a RESET entry of level 0; PLL lock switches every domain to its PLL, reads the fuses and commands 750 mV.
HBM_TRAINING_COMPLETE, IMAGE_LOAD_COMPLETE and FIRMWARE_START complete (R294, R393-R396, R436, R496, R499). A stack whose
training failed is failed and every other is ready; of the generations of which every section can be loaded the highest is loaded
at power-on, and the running one after a device reset; with the strap that selects no NVM the device has no image; device firmware
that starts again announces itself on mailbox 0 with RESTARTED. -/
def Obligations.StartSequenceCompletes : Prop :=
  (∀ t pins s, s.pwr.por = true → s.stepDone 1 = false →
    completes (.supplyGood t pins) s (fun u =>
      u.stepDone 1 = true ∧ u.stepDone 2 = true ∧ u.pwr.strap = strapWord pins ∧ u.pwr.por = true)) ∧
  (∀ supply s, completes (.powerOnReset supply) s (fun u =>
      u.pwr.por = true ∧ u.pwr.steps = 0 ∧ u.pending = s.pending ∧ u.regs = {} ∧ u.sched = {} ∧ u.log.ring = [] ∧
      u.flt.src = {} ∧ u.path = {} ∧ u.beat = {})) ∧
  (∀ t s, s.pwr.por = true → s.stepDone 2 = true → s.pwr.refSince + s.refWait ≤ max s.now t → s.room 1 = true →
    completes (.refclkCountComplete t) s (fun u =>
      u.pwr.por = false ∧ u.stepDone 3 = true ∧ u.logged 0x19 .hardware 0 (s.resetEntry .hardware 0 0).a 0)) ∧
  (∀ t fuses rootId ok s, s.still = false → s.stepDone 3 = true → s.stepDone 4 = false → s.stepDone 5 = false →
    completes (.pllLock t fuses rootId ok) s (fun u =>
      u.stepDone 4 = true ∧ u.stepDone 5 = true ∧ u.stepDone 6 = true ∧ u.pwr.avsCmd = 750 ∧ u.pwr.rootId = rootId ∧
      ∀ d : Fin 206, (u.domAt d.val).input = 1 ∧ (u.domAt d.val).lock = true)) ∧
  (∀ t failed pcs s, s.still = false → s.stepDone 4 = true → s.stepDone 7 = false → s.pwr.fatal = false →
    completes (.hbmTrainingComplete t failed pcs) s (fun u =>
      u.stepDone 7 = true ∧ ∀ h : Fin 4, (u.hbmAt h.val).link = (if failed.contains h then 3 else 2))) ∧
  (∀ t a b g s, s.still = false → s.stepDone 6 = true → s.stepDone 8 = false → s.pwr.fatal = false → s.nvmMode ≠ 3 →
    highest ((if s.gon.img.booted then [s.gon.img.gRun] else generations a b).filter (fun g => complete a b g)) = some g →
    completes (.imageLoadComplete t a b) s (fun u =>
      u.stepDone 8 = true ∧ u.gon.img.noImage = false ∧ u.gon.img.gRun = g ∧ u.gon.img.refDir = refDirOf a b g ∧
      u.gon.img.booted = true)) ∧
  (∀ t a b s, s.still = false → s.stepDone 6 = true → s.stepDone 8 = false → s.pwr.fatal = false → s.nvmMode = 3 →
    completes (.imageLoadComplete t a b) s (fun u =>
      u.stepDone 8 = true ∧ u.gon.img.noImage = true ∧ u.gon.img.booted = true)) ∧
  (∀ t scan s, s.still = false → s.stepDone 8 = true → s.stepDone 9 = true → s.gon.fwReady = false →
    (s.coreAt 0).halted = false → (s.domAt 201).inReset = false →
    completes (.firmwareStart t scan) s (fun u =>
      u.gon.fwReady = true ∧ u.gon.restarts = (s.gon.restarts + 1) % 2 ^ 32 ∧
      (u.mbAt 0).outQ = (s.mbAt 0).outQ ++ [fwMsg 0x7F 2 0 0 (bytesOf 4 u.gon.restarts ++ bytesOf 1 s.gon.cause)]))

/-! ### The beat (02) -/

/-- BEAT_FRAME completes (R43, R47, R48): a valid frame waits for its local edge, 1,310 ns plus the delay of BEAT_CFG after its
mid-cell transition; a frame that is not valid is counted, and its interval is no period.
LOCAL_BEAT_EDGE completes (R50, R51, R52, R55). The first frame's edge takes the scheduler from NONE to ACQUIRING with its
index; in ACQUIRING a frame of the next index, with its predecessor's edge one interval before, gives the learned period and
LOCKED; a frame whose edge comes less than 1.9 µs after the last one is not accepted and counts as a short interval. -/
def Obligations.BeatFramesAndEdgesComplete : Prop :=
  (∀ t cells s i f inv, s.still = false → decodeBeat cells = some (i, f, inv) →
    completes (.beatFrame t cells) s (fun u =>
      u.beat.pend = s.beat.pend ++ [{ index := i, flags := f, inverted := inv,
                                      edge := max s.now t + (1310 + s.bits 0x10014 7 0) * ns,
                                      delay := s.bits 0x10014 7 0 }] ∧
      u.beat.st = s.beat.st ∧ u.beat.index = s.beat.index ∧ u.beat.frameErr = s.beat.frameErr)) ∧
  (∀ t cells s, s.still = false → decodeBeat cells = none →
    completes (.beatFrame t cells) s (fun u =>
      u.beat.frameErr = satAdd 65535 s.beat.frameErr 1 ∧ u.beat.gap = true ∧ u.beat.pend = s.beat.pend ∧
      u.beat.st = s.beat.st ∧ u.beat.index = s.beat.index)) ∧
  (∀ t s f l, s.still = false → s.beat.pend = f :: l → f.edge ≤ max s.now t → s.beat.st = .none →
    completes (.localBeatEdge t) s (fun u =>
      u.beat.st = .acquiring ∧ u.beat.index = f.index ∧ u.beat.edge = f.edge ∧ u.beat.pend = l)) ∧
  (∀ t s f l, s.still = false → s.beat.pend = f :: l → f.edge ≤ max s.now t → s.beat.st = .acquiring → s.beat.gap = false →
    s.beat.dist f = 1 → s.beat.edge + 1900 * ns ≤ f.edge →
    completes (.localBeatEdge t) s (fun u =>
      u.beat.st = .locked ∧ u.beat.index = f.index ∧ u.beat.edge = f.edge ∧ u.beat.period = some (f.edge - s.beat.edge) ∧
      u.beat.pend = l)) ∧
  (∀ t s f l, s.still = false → s.beat.pend = f :: l → f.edge ≤ max s.now t → s.beat.st ≠ .none →
    f.edge < s.beat.edge + 1900 * ns →
    completes (.localBeatEdge t) s (fun u =>
      u.beat.short = satAdd 65535 s.beat.short 1 ∧ u.beat.st = s.beat.st ∧ u.beat.index = s.beat.index ∧ u.beat.pend = l))

/-- BEAT_LOSS and SCHED_FIRE complete (R50, R51, R61). Two and a half learned periods without a frame enter LOST, which holds the
beat time; what is not LOCKED fires nothing; in LOCKED a LOG_MARK whose beat time is reached leaves its slot with its SCHED_RETIRE
and MARK entries. -/
def Obligations.LossAndFiringComplete : Prop :=
  (∀ t s, s.still = false → (s.at t).beatGone = true →
    completes (.beatLoss t) s (fun u =>
      u.beat.st = .lost ∧ u.beat.held = (s.at t).beatTime ∧ u.beat.index = s.beat.index)) ∧
  (∀ t s, s.still = false → s.beat.st ≠ .locked → completes (.schedFire t) s (fun u => u.sched = s.sched)) ∧
  (∀ t s bt k v, s.still = false → s.firing = true → s.trnEnable = false → s.room 2 = true →
    (s.at t).dueEntries (fun x => decide (x ≤ (s.at t).beatTime)) = [(bt, k)] →
    actOf (s.schedAt k).w2.toNat (s.schedAt k).w3.toNat = some (.logMark v) →
    completes (.schedFire t) s (fun u =>
      u.schedAt k = {} ∧ (∃ b, u.logged 0x08 (s.schedAt k).origin k (s.schedAt k).w2.toNat b) ∧
      ∃ b, u.logged 0x13 (s.schedAt k).origin 0 v b))

/-! ### The schedule (02) -/

/-- SCHED_LOAD and SCHED_CANCEL by a CTRL flit complete (R57, R59, R534). A load that passes its checks fills the slot and reports 0; one
that does not leaves the table and reports its code; a cancel of a valid entry at or after the horizon frees the slot, and one of
a free slot reports 7.
The same over the registers: SCHED_CMD written by any origin but a CTRL flit loads or cancels, with its REG_WRITE entry
(R59, R414, R491, R533). -/
def Obligations.ScheduleLoadsComplete : Prop :=
  (∀ ip slot w0 w1 w2 w3 s, s.unclocked = false → s.fatalRefuses (.ctrlFlit ip) = false → s.room 2 = true →
    (let e : SchedEnt := { valid := true, w0 := w0, w1 := w1, w2 := w2 ||| 0x80000000#32, w3 := w3, origin := .ctrlFlit ip }
     completes (.schedLoad (.ctrlFlit ip) slot w0 w1 w2 w3) s (fun u =>
       u.sched.result = s.loadResult slot.val e ∧
       u.schedAt slot.val = (if s.loadResult slot.val e = 0 then e else s.schedAt slot.val) ∧
       u.logged 0x06 (.ctrlFlit ip) slot.val e.w2.toNat w3.toNat))) ∧
  (∀ ip slot s, s.unclocked = false → s.fatalRefuses (.ctrlFlit ip) = false → s.room 1 = true →
    (s.schedAt slot.val).valid = true → s.beforeHorizon (s.schedAt slot.val).time = false →
    completes (.schedCancel (.ctrlFlit ip) slot) s (fun u =>
      u.sched.result = 0 ∧ u.schedAt slot.val = {} ∧ u.logged 0x07 (.ctrlFlit ip) slot.val (s.schedAt slot.val).w2.toNat 0)) ∧
  (∀ ip slot s, s.unclocked = false → s.fatalRefuses (.ctrlFlit ip) = false → s.room 1 = true →
    (s.schedAt slot.val).valid = false →
    completes (.schedCancel (.ctrlFlit ip) slot) s (fun u => u.sched.result = 7 ∧ u.schedAt slot.val = s.schedAt slot.val)) ∧
  (∀ o slot w0 w1 w2 w3 s, (∀ ip, o ≠ .ctrlFlit ip) → s.unclocked = false → s.fatalRefuses o = false → s.room 3 = true →
    (let e : SchedEnt := { valid := true, w0 := w0, w1 := w1, w2 := w2 ||| 0x80000000#32, w3 := w3, origin := o }
     s.loadResult slot.val e = 0 →
     completes (.schedLoad o slot w0 w1 w2 w3) s (fun u =>
       u.sched.result = 0 ∧ u.schedAt slot.val = e ∧ u.logged 0x01 o 0x10110 (slot.val + 2 ^ 16) 0 ∧
       u.logged 0x06 o slot.val e.w2.toNat w3.toNat))) ∧
  (∀ o slot s, (∀ ip, o ≠ .ctrlFlit ip) → s.unclocked = false → s.fatalRefuses o = false → s.room 2 = true →
    (s.schedAt slot.val).valid = true → s.beforeHorizon (s.schedAt slot.val).time = false →
    completes (.schedCancel o slot) s (fun u =>
      u.sched.result = 0 ∧ u.schedAt slot.val = {} ∧ u.logged 0x01 o 0x10110 (slot.val + 2 ^ 17) 0))

/-! ### Actions (02, 05, 06, 07, 08, 13) -/

/-- NOP, LOG_MARK, CAPTURE_OPEN and CAPTURE_CLOSE complete (R58, R61, R62, R264, R265, R413): each leaves its slot with a
SCHED_RETIRE entry; LOG_MARK writes a MARK entry; at its path's next boundary CAPTURE_OPEN opens an idle capture stream with its
record limit and CAPTURE_CLOSE closes an open one.
WINDOW_OPEN and WINDOW_CLOSE complete (R62, R316, R317), each at the next boundary of its path. An IDLE context opens with its label
and cleared results; an OPEN one ignores the open and counts it; a close freezes the running window into the context's next bank,
FORMING, and makes the context IDLE; a close of an IDLE context leaves its banks. -/
def Obligations.CaptureAndWindowActionsComplete : Prop :=
  (∀ f v s, s.fires f (.nop v.toNat) = true → completes (.nop f v) s (fun u =>
    u.schedAt f.slot.val = {} ∧ ∃ b, u.logged 0x08 f.origin f.slot.val ((Act.nop v.toNat).w2 f.train) b)) ∧
  (∀ f v s, s.fires f (.logMark v.toNat) = true → completes (.logMark f v) s (fun u =>
    u.schedAt f.slot.val = {} ∧ u.logged 0x13 f.origin 0 v.toNat (if f.late then 1 else 0))) ∧
  (∀ f k n s, s.fires f (.captureOpen k.val n.toNat) = true → (s.strmAt k.val).isOpen = false → s.stEn k.val = true →
    s.stRole k.val ≤ 1 → completes (.captureOpen f k n) s (fun u =>
      u.schedAt f.slot.val = {} ∧ s.waitsOr f (.captureOpen k.val n.toNat) u
        ((u.strmAt k.val).isOpen = true ∧ (u.strmAt k.val).limit = n.toNat ∧ u.logged 0x16 f.origin k.val 1 0))) ∧
  (∀ f k s, s.fires f (.captureClose k.val) = true → (s.strmAt k.val).isOpen = true → (s.strmAt k.val).armed = false →
    completes (.captureClose f k) s (fun u =>
      u.schedAt f.slot.val = {} ∧ s.waitsOr f (.captureClose k.val) u
        ((u.strmAt k.val).isOpen = false ∧ (u.strmAt k.val).closedAt = some s.now ∧ u.logged 0x16 f.origin k.val 2 1))) ∧
  (∀ f p c l s, s.fires f (.windowOpen p.val c.val l) = true → (s.ctxAt p.val c.val).waiting = none →
    (s.ctxAt p.val c.val).isOpen = false → completes (.windowOpen f p c l) s (fun u =>
      s.waitsOr f (.windowOpen p.val c.val l) u
        ((u.ctxAt p.val c.val).isOpen = true ∧ (u.ctxAt p.val c.val).win.label = l ∧ (u.ctxAt p.val c.val).win.lane = {} ∧
         u.logged 0x14 f.origin (p.val + 32 * c.val) l.toNat 1))) ∧
  (∀ f p c l s, s.fires f (.windowOpen p.val c.val l) = true → (s.ctxAt p.val c.val).waiting = none →
    (s.ctxAt p.val c.val).isOpen = true → completes (.windowOpen f p c l) s (fun u =>
      s.waitsOr f (.windowOpen p.val c.val l) u
        ((u.ctxAt p.val c.val).isOpen = true ∧ (u.ctxAt p.val c.val).win.label = (s.ctxAt p.val c.val).win.label ∧
         (u.ctxAt p.val c.val).ignored = satAdd 65535 (s.ctxAt p.val c.val).ignored 1 ∧
         u.logged 0x14 f.origin (p.val + 32 * c.val) l.toNat 2))) ∧
  (∀ f p c s, s.fires f (.windowClose p.val c.val) = true → (s.ctxAt p.val c.val).waiting = none →
    (s.ctxAt p.val c.val).isOpen = true → (s.ctxAt p.val c.val).forming = 0 → (s.ctxAt p.val c.val).nextBank = 0 →
    completes (.windowClose f p c) s (fun u =>
      s.waitsOr f (.windowClose p.val c.val) u
        ((u.ctxAt p.val c.val).isOpen = false ∧ (u.ctxAt p.val c.val).forming = 1 ∧ (u.ctxAt p.val c.val).nextBank = 1 ∧
         (u.ctxAt p.val c.val).bank0.label = (s.ctxAt p.val c.val).win.label))) ∧
  (∀ f p c s, s.fires f (.windowClose p.val c.val) = true → (s.ctxAt p.val c.val).waiting = none →
    (s.ctxAt p.val c.val).isOpen = false → completes (.windowClose f p c) s (fun u =>
      s.waitsOr f (.windowClose p.val c.val) u
        ((u.ctxAt p.val c.val).isOpen = false ∧ (u.ctxAt p.val c.val).bank0 = (s.ctxAt p.val c.val).bank0 ∧
         (u.ctxAt p.val c.val).bank1 = (s.ctxAt p.val c.val).bank1 ∧
         u.logged 0x14 f.origin (p.val + 32 * c.val) 0 3)))

/-- STAGE_APPLY, MODE_SET and SPARE_SWAP complete (R15, R62, R167, R402). An apply without retain empties its set, and so does one whose
set has an uncorrectable error; a MODE_SET that no rule refuses sets the path's mode; a planned swap that no rule refuses puts the
incoming position into the active set in place of the outgoing one at the path's next boundary. -/
def Obligations.ApplyModeAndSwapComplete : Prop :=
  (∀ f k ecc s, s.fires f (.stageApply k.val false ecc) = true → completes (.stageApply f k false ecc) s (fun u =>
    u.schedAt f.slot.val = {} ∧ u.stg.sets.get [] k.val = [])) ∧
  (∀ f k s, s.fires f (.stageApply k.val true false) = true → (s.applyPlan k.val).held = [] →
    completes (.stageApply f k true false) s (fun u => u.stg.sets.get [] k.val = s.stg.sets.get [] k.val)) ∧
  (∀ f p m s, s.fires f (.modeSet p.val m) = true → (s.switchesNow p.val = true ∨ s.stg.switch.get [] p.val = []) →
    completes (.modeSet f p m) s (fun u => u.schedAt f.slot.val = {} ∧ (u.pathAt p.val).mode = m)) ∧
  (∀ f ip i o a b s, s.fires f (.spareSwap ip.val i.val o.val) = true → s.posOfLane ip.val i.val = some a →
    s.posOfLane ip.val o.val = some b → s.swapRefusal ip.val i.val o.val s.now = none →
    completes (.spareSwap f ip i o) s (fun u => s.waitsOr f (.spareSwap ip.val i.val o.val) u
      ((u.portAt ip.val).active = ((s.portAt ip.val).active &&& ~~~posBit b) ||| posBit a ∧
       u.logged 0x0C f.origin (i.val + 256 * ip.val) 3 o.val)))

/-- ADAPT_FREEZE, ADAPT_UNFREEZE, STIM_START, STIM_STOP, TRIGGER_ARM (arm and disarm) and MARK_SEND complete (R22, R58, R62, R91, R234,
R267, R597). A lane in Run is frozen, any other is recorded to freeze; unfreezing clears both; stimulus starts at bit 0 from the
generator or the replay stream, and ends at its path's next boundary; there idle capture streams named are armed, armed ones
disarmed; a MARK flit with the value joins the link. -/
def Obligations.LaneStimulusAndTriggerActionsComplete : Prop :=
  (∀ f sc s, s.fires f (.freeze true (freezeTarget sc)) = true → completes (.adaptFreeze f sc) s (fun u =>
    ∀ l ∈ s.freezeLanes (freezeTarget sc),
      if (s.laneAt l).st = .run then (u.laneAt l).frozen = true else (u.laneAt l).freezePend = true)) ∧
  (∀ f sc s, s.fires f (.freeze false (freezeTarget sc)) = true → completes (.adaptUnfreeze f sc) s (fun u =>
    ∀ l ∈ s.freezeLanes (freezeTarget sc), (u.laneAt l).frozen = false ∧ (u.laneAt l).freezePend = false)) ∧
  (∀ f p g s, s.fires f (.stimStart p.val g) = true → completes (.stimStart f p g) s (fun u =>
    (u.pathAt p.val).stimGen = g ∧ (u.pathAt p.val).stimPos = 0 ∧
    (g = true → s.calm = true → s.pathEn p.val = true → (u.pathAt p.val).stim = true ∧ (u.pathAt p.val).dOut = 1))) ∧
  (∀ f p s, s.fires f (.stimStop p.val) = true → s.calm = true → (s.pathAt p.val).stimGen = true →
    completes (.stimStop f p) s (fun u => s.waitsOr f (.stimStop p.val) u ((u.pathAt p.val).stim = false))) ∧
  (∀ f p d s, s.fires f (.trigger true p.val d.toNat) = true → completes (.triggerArm f p d) s (fun u =>
    s.waitsOr f (.trigger true p.val d.toNat) u
      (∀ k ∈ triggerStreams p.val d.toNat, (s.strmAt k).isOpen = false → s.stEn k = true → s.stRole k = 0 →
        (u.strmAt k).armed = true))) ∧
  (∀ f p d s, s.fires f (.trigger false p.val d.toNat) = true → completes (.triggerDisarm f p d) s (fun u =>
    s.waitsOr f (.trigger false p.val d.toNat) u
      (∀ k ∈ triggerStreams p.val d.toNat, (u.strmAt k).armed = false))) ∧
  (∀ f ip v s, s.fires f (.markSend ip.val v.toNat) = true → s.calm = true → completes (.markSend f ip v) s (fun u =>
    ∃ x ∈ (u.portAt ip.val).link.wait, x.typ = 7 ∧ x.payload = markPayload v.toNat f.late s.beatTime))

/-- The four REKEY steps complete (R468, R469, R470): start takes up the slots of a rekey that its checks pass, with no row done;
pause and resume switch between running and paused; retire ends a completed rekey and unbinds the old slot. -/
def Obligations.RekeyActionsComplete : Prop :=
  (∀ f a b s, s.fires f (.rekey 0 a.val b.val) = true → s.rekeyResult 0 a.val b.val = 0 →
    completes (.rekeyStart f a b) s (fun u =>
    u.env.rkResult = 0 ∧ u.env.rkOld = a.val ∧ u.env.rkNew = b.val ∧ u.env.rkDone = 0 ∧
    u.env.rkState = (if u.env.rkTotal = 0 then 3 else 1))) ∧
  (∀ f a b s, s.fires f (.rekey 1 a.val b.val) = true → s.rekeyResult 1 a.val b.val = 0 → s.env.rkState = 1 →
    completes (.rekeyPause f a b) s (fun u => u.env.rkState = 2 ∧ u.env.rkResult = 0)) ∧
  (∀ f a b s, s.fires f (.rekey 2 a.val b.val) = true → s.rekeyResult 2 a.val b.val = 0 → s.env.rkState = 2 →
    completes (.rekeyResume f a b) s (fun u => u.env.rkState = 1 ∧ u.env.rkResult = 0)) ∧
  (∀ f a b s, s.fires f (.rekey 3 a.val b.val) = true → s.rekeyResult 3 a.val b.val = 0 → a.val ≠ 0 →
    completes (.rekeyRetire f a b) s (fun u => u.env.rkState = 0 ∧ u.env.slot.get none a.val = none))

/-! ### Lanes and quads (03) -/

/-- ANCHOR_MATCH and ANCHOR_MISS complete (R80). A first anchor word makes a lane in SEARCH a CANDIDATE at its symbol position; a
second one, 18,874,432 symbols on with the next count, locks it, and a locked lane keeps its lock at each further one. The
expected position without a match sends a CANDIDATE back to SEARCH; of a LOCKED lane it is the third in a row that does.
TX_SHORT, TX_SHORT_RETEST and RECEIVER_DETECTION complete (R97, R98, R100). A short puts the transmitter at high impedance with its
legs and kind in LANE_SENSE and raises tx_short; the clean tests in a row are counted; an open leg is reported in LANE_SENSE and
keeps the lane from eligibility until a detection finds both. -/
def Obligations.AnchorsAndWiringComplete : Prop :=
  (∀ l pos levels inv ident s, s.still = false → s.receives l.val = true → anchorDecode levels = some (inv, ident) →
    (s.laneAt l.val).anchor = .search → (s.noLadder = true ∨ s.calm = true ∧ inv = (s.laneAt l.val).rxInv) →
    completes (.anchorMatch l pos levels) s (fun u =>
      (u.laneAt l.val).anchor = .candidate ∧ (u.laneAt l.val).matchPos = pos ∧
      (u.laneAt l.val).count = BitVec.ofNat 16 (ident % 2 ^ 16) ∧ (u.laneAt l.val).rxInv = inv)) ∧
  (∀ l pos levels inv ident s, s.still = false → s.receives l.val = true → anchorDecode levels = some (inv, ident) →
    s.noLadder = true → (∀ ip k, s.portOfLane l.val = some (ip, k) → (s.portAt ip).lad.step ≠ 4) →
    pos = (s.laneAt l.val).matchPos + anchorSpacing →
    ((s.laneAt l.val).anchor = .candidate ∧ BitVec.ofNat 16 (ident % 2 ^ 16) = (s.laneAt l.val).count + 1 ∨
      (s.laneAt l.val).anchor = .locked) → completes (.anchorMatch l pos levels) s (fun u =>
      (u.laneAt l.val).anchor = .locked ∧ (u.laneAt l.val).matchPos = pos ∧ (u.laneAt l.val).misses = 0 ∧
      (u.laneAt l.val).count = BitVec.ofNat 16 (ident % 2 ^ 16))) ∧
  (∀ l s, s.still = false → (s.laneAt l.val).anchor = .candidate →
    completes (.anchorMiss l) s (fun u => (u.laneAt l.val).anchor = .search)) ∧
  (∀ l s, s.still = false → (s.laneAt l.val).anchor = .locked → (s.noLadder = true ∨ s.calm = true) →
    completes (.anchorMiss l) s (fun u =>
    if (s.laneAt l.val).misses < 2 then
      (u.laneAt l.val).anchor = .locked ∧ (u.laneAt l.val).misses = (s.laneAt l.val).misses + 1 ∧
      (u.laneAt l.val).matchPos = (s.laneAt l.val).matchPos + anchorSpacing
    else (u.laneAt l.val).anchor = .search ∧ (u.laneAt l.val).eligible = false ∧
      (u.laneAt l.val).cut = (s.laneAt l.val).cut ||| 0x40)) ∧
  (∀ l legs kind s, s.still = false → s.laneOn l.val = true → completes (.txShort l legs kind) s (fun u =>
    (u.laneAt l.val).txHiZ = true ∧ (u.laneAt l.val).clean = 0 ∧
    (u.laneAt l.val).sense.toNat % 16 = kind.val * 4 + legs.toNat ∧
    (l.val < 128 → s.armed (srcLane l.val 0) = true → s.raisedIn (srcLane l.val 0) u))) ∧
  (∀ l clean s, s.still = false → (s.laneAt l.val).txHiZ = true → completes (.txShortRetest l clean) s (fun u =>
    (u.laneAt l.val).txHiZ = true ∧
    (u.laneAt l.val).clean = (if clean then min 3 ((s.laneAt l.val).clean + 1) else 0) ∧
    (clean = true → (s.laneAt l.val).clean = 2 → l.val < 128 → (u.srcAt (srcLane l.val 0)).cond = false))) ∧
  (∀ l fp fn s, s.still = false → s.laneOn l.val = true → completes (.receiverDetection l fp fn) s (fun u =>
    (u.laneAt l.val).sense.toNat / 256 % 4 = (if fp then 0 else 1) + (if fn then 0 else 2) ∧
    (if (fp && fn) = true then (u.laneAt l.val).cut = (s.laneAt l.val).cut &&& 0xFE
     else (u.laneAt l.val).cut = (s.laneAt l.val).cut ||| 0x01 ∧ (u.laneAt l.val).eligible = false)))

/-- RX_LOS, CDR_UNLOCK, BLOCK_LOCK_LOSS, DSP_ERROR and BER_INTERVAL_END complete (R80, R100, R102, R108). Each of the first four cuts its
lane off, so that it is not eligible, and raises its source; loss of CDR lock also returns the anchor machine to SEARCH; an
interval with more error events than LANE_BER.limit raises ber_high and one with no more ends the condition: RS symbols corrected
on a Qormos PAM4 lane, pseudo-errors of the continuous monitor on another.
CDR_LOCK, RX_LOS_END and BLOCK_LOCK_ACQUIRED complete (R100, R102, R105, R358): each ends its lane's condition and no longer cuts the
lane off; the source of an ended condition is no longer ACTIVE. -/
def Obligations.ReceiverConditionsComplete : Prop :=
  (∀ l s, s.still = false → s.laneOn l.val = true → completes (.rxLos l) s (fun u =>
    (u.laneAt l.val).cut = (s.laneAt l.val).cut ||| 0x02 ∧ (u.laneAt l.val).eligible = false ∧
    (l.val < 128 → s.armed (srcLane l.val 2) = true → s.raisedIn (srcLane l.val 2) u))) ∧
  (∀ l s, s.still = false → s.laneOn l.val = true → completes (.cdrUnlock l) s (fun u =>
    (u.laneAt l.val).cut = (s.laneAt l.val).cut ||| 0x04 ∧ (u.laneAt l.val).eligible = false ∧
    (u.laneAt l.val).anchor = .search ∧
    (l.val < 128 → s.armed (srcLane l.val 3) = true → s.raisedIn (srcLane l.val 3) u))) ∧
  (∀ l s, s.still = false → s.laneOn l.val = true → completes (.blockLockLoss l) s (fun u =>
    (u.laneAt l.val).cut = (s.laneAt l.val).cut ||| 0x40 ∧ (u.laneAt l.val).eligible = false ∧
    (l.val < 128 → (s.laneAt l.val).cutOff = false → s.armed (srcLane l.val 4) = true → s.raisedIn (srcLane l.val 4) u))) ∧
  (∀ l s, s.still = false → s.laneOn l.val = true → completes (.dspError l) s (fun u =>
    (u.laneAt l.val).cut = (s.laneAt l.val).cut ||| 0x08 ∧ (u.laneAt l.val).eligible = false ∧
    (l.val < 128 → s.armed (srcLane l.val 9) = true → s.raisedIn (srcLane l.val 9) u))) ∧
  (∀ l samples ev s, s.still = false → s.laneOn l.val = true → l.val < 128 →
    (if l.val < 64 ∧ 10 ≤ s.curRate l.val then ev = (s.laneAt l.val).rsCorr
     else s.monitors l.val = true ∧
      ev = (wskCount (s.wskLevel l.val) (signed7 (s.bits (laneBase l.val + 0x30) 14 8)) samples).1) →
    completes (.berIntervalEnd l samples) s (fun u => (u.laneAt l.val).rsCorr = 0 ∧
      if (s.reg (laneBase l.val + 0x34)).toNat < ev then
        s.armed (srcLane l.val 6) = true → s.raisedIn (srcLane l.val 6) u
      else (u.srcAt (srcLane l.val 6)).cond = false)) ∧
  (∀ l s, s.still = false → completes (.cdrLock l) s (fun u => (u.laneAt l.val).cut = (s.laneAt l.val).cut &&& 0xFB ∧
    (l.val < 128 → (u.srcAt (srcLane l.val 3)).cond = false ∧ (u.srcAt (srcLane l.val 3)).st ≠ 1))) ∧
  (∀ l s, s.still = false → completes (.rxLosEnd l) s (fun u => (u.laneAt l.val).cut = (s.laneAt l.val).cut &&& 0xFD ∧
    (l.val < 128 → (u.srcAt (srcLane l.val 2)).cond = false ∧ (u.srcAt (srcLane l.val 2)).st ≠ 1))) ∧
  (∀ l s, s.still = false → completes (.blockLockAcquired l) s (fun u => (u.laneAt l.val).cut = (s.laneAt l.val).cut &&& 0xBF ∧
    (l.val < 128 → (u.srcAt (srcLane l.val 4)).cond = false ∧ (u.srcAt (srcLane l.val 4)).st ≠ 1)))

/-- ADAPTATION_UPDATE completes (R88, R89, R90): a lane in Run takes the values wanted, brought within its bounds, and notes the bounds
reached; a frozen lane keeps its settings.
PLL_UNLOCK, CLOCK_MONITOR, QUAD_PLL_RELOCK, CALIBRATION and QUAD_CONFIG_ECC complete (R98, R101, R432). The quad's PLL status and that
of its transmit domain follow; a missing edge is shown by the monitor of the clock in use; calibration cuts off the lanes out of
range and sets cal_failed; an uncorrectable configuration error makes the quad's lanes not eligible and raises its source. -/
def Obligations.AdaptationAndQuadsComplete : Prop :=
  (∀ l pos ctle ffe dfe main req b s, s.still = false → s.receives l.val = true → b = laneBase l.val + 0x18 →
    completes (.adaptationUpdate l pos ctle ⟨ffe, dfe, main⟩ req) s (fun u =>
      if (s.laneAt l.val).frozen = true then
        (u.laneAt l.val).eq = (s.laneAt l.val).eq ∧ (u.laneAt l.val).bound = (s.laneAt l.val).bound
      else
        (u.laneAt l.val).eq.ctle = min 24 (max (s.bits b 4 0) (min (s.bits b 12 8) ctle)) ∧
        (u.laneAt l.val).eq.dfe = max (-(s.bits b 31 24 : Int)) (min (s.bits b 31 24 : Int) dfe) ∧
        (u.laneAt l.val).eq.ffe.length = 24 ∧
        (∀ i : Fin 24, (u.laneAt l.val).eq.ffe.getD i.val 0 = (if i.val + 1 = (s.laneAt l.val).ffeMain then ffe.getD i.val 0
          else max (-(s.bits b 23 16 : Int)) (min (s.bits b 23 16 : Int) (ffe.getD i.val 0)))) ∧
        (u.laneAt l.val).bound = (s.laneAt l.val).bound |||
          BitVec.ofNat 5 ((s.adapt l.val ctle ffe dfe).2 + (if (askPartner l.val req s).1 then 16 else 0)))) ∧
  (∀ t q s, s.still = false → completes (.pllUnlock t q) s (fun u =>
    (u.quadAt q.val).pll = false ∧ (u.domAt (txDom q.val)).lock = false)) ∧
  (∀ t q s, s.still = false → completes (.clockMonitor t q) s (fun u =>
    Nat.testBit (u.domAt (txDom q.val)).mon.toNat (s.domAt (txDom q.val)).input = false ∧
    (q.val < 32 → s.armed (srcQuad q.val 1) = true → s.raisedIn (srcQuad q.val 1) u))) ∧
  (∀ q s, s.still = false → completes (.quadPllRelock q) s (fun u =>
    (u.quadAt q.val).pll = true ∧ (u.domAt (txDom q.val)).lock = true ∧
    Nat.testBit (u.domAt (txDom q.val)).mon.toNat 1 = true ∧
    ((s.quadAt q.val).input ≠ 2 → (u.quadAt q.val).noClock = false))) ∧
  (∀ q good terms s, s.still = false → completes (.calibration q good terms) s (fun u =>
    (u.quadAt q.val).calFailed = (good.take 4).any (fun g => !g) ∧
    ∀ k : Fin 4, (u.laneAt (4 * q.val + k.val)).cut =
        (if good.getD k.val true then (s.laneAt (4 * q.val + k.val)).cut &&& 0xEF else (s.laneAt (4 * q.val + k.val)).cut ||| 0x10) ∧
      (u.laneAt (4 * q.val + k.val)).sense.toNat / 2 ^ 16 =
        (terms.getD k.val (0, 0)).2 % 256 * 256 + (terms.getD k.val (0, 0)).1 % 256)) ∧
  (∀ q s, s.still = false → completes (.quadConfigEcc q) s (fun u =>
    (u.quadAt q.val).cfgEcc = true ∧
    (∀ k : Fin 4, (u.laneAt (4 * q.val + k.val)).cut = (s.laneAt (4 * q.val + k.val)).cut ||| 0x80 ∧
      (u.laneAt (4 * q.val + k.val)).eligible = false) ∧
    (q.val < 32 → s.armed (srcQuad q.val 3) = true → s.raisedIn (srcQuad q.val 3) u)))

/-- LANE_DOZE_ENTRY, LANE_DOZE_EXIT and MOORED_EXIT_COMPLETE complete (R91, R103, R104, R105, R109). A PCIe lane in Run enters Doze, which
ends its Windsock scan; it leaves Doze for Run and takes a freeze recorded for it; a lane that leaves Moored is in Run with its
stored coefficients at their rate, with the seed coefficients at any other.
The four writes of WSK_CTRL.op, WSK_SCAN_END and MARGINING_COMMAND complete (R108, R109, R133, R553). A lane in Run begins the
operation written, with no point done, and op 0 ends one; an operation that ends reports why and its points; a receiver of the device
answers a margining command, which preempts its scan, a step command holds its sampler, and a virtual pseudo-port answers that it
does not support margining. -/
def Obligations.LaneStatesAndWindsockComplete : Prop :=
  (∀ l s, s.still = false → (s.laneAt l.val).st = .run → s.pcieLane l.val = true → completes (.laneDozeEntry l) s (fun u =>
    (u.laneAt l.val).st = .doze ∧ (u.laneAt l.val).eligible = false ∧
    (u.laneAt l.val).wskOp = (if (s.laneAt l.val).wskOp = 3 then 3 else 0) ∧
    (u.laneAt l.val).wskEnd = (if (s.laneAt l.val).wskOp = 0 ∨ (s.laneAt l.val).wskOp = 3 then (s.laneAt l.val).wskEnd else 2))) ∧
  (∀ l s, s.still = false → (s.laneAt l.val).st = .doze → completes (.laneDozeExit l) s (fun u =>
    (u.laneAt l.val).st = .run ∧ (u.laneAt l.val).freezePend = false ∧
    (u.laneAt l.val).frozen = ((s.laneAt l.val).frozen || (s.laneAt l.val).freezePend))) ∧
  (∀ l s, s.still = false → (s.laneAt l.val).st = .moored → (s.laneAt l.val).exiting = true →
    (∀ n, s.pathOfLane l.val = some n → (s.pathAt n).phase ≠ .wake ∨
      ∃ m ∈ s.dLanes n ++ s.iLanes n, m ≠ l.val ∧ (s.laneAt m).exiting = true) →
    completes (.mooredExitComplete l) s (fun u =>
      (u.laneAt l.val).st = .run ∧ (u.laneAt l.val).exiting = false ∧
      (u.laneAt l.val).eq = (match (s.laneAt l.val).stored with
        | some (r, e) => if r = s.laneRate l.val then e else s.seedEq (s.laneRate l.val)
        | none => s.seedEq (s.laneRate l.val)))) ∧
  (∀ l c s, s.still = false → (s.laneAt l.val).st = .run →
    completes (.wskPoint l c) s (fun u =>
      (u.laneAt l.val).wskOp = 1 ∧ (u.laneAt l.val).wskDone = 0 ∧ (u.laneAt l.val).wskEnd = 0) ∧
    completes (.wskRaster l c) s (fun u =>
      (u.laneAt l.val).wskOp = 2 ∧ (u.laneAt l.val).wskDone = 0 ∧ (u.laneAt l.val).wskEnd = 0) ∧
    completes (.wskMonitor l c) s (fun u =>
      (u.laneAt l.val).wskOp = 3 ∧ (u.laneAt l.val).wskDone = 0 ∧ (u.laneAt l.val).wskEnd = 0) ∧
    completes (.wskIdle l c) s (fun u =>
      (u.laneAt l.val).wskOp = 0 ∧ (u.laneAt l.val).wskDone = (s.laneAt l.val).wskDone ∧
      (u.laneAt l.val).wskEnd = (s.laneAt l.val).wskEnd)) ∧
  (∀ l cause points s, s.still = false → (s.laneAt l.val).wskOp ≠ 0 → completes (.wskScanEnd l cause points) s (fun u =>
    (u.laneAt l.val).wskOp = 0 ∧
    (u.laneAt l.val).wskDone = (if (s.laneAt l.val).wskOp = 3 then 0 else min (s.wskPoints l.val (s.laneAt l.val).wskOp) points.length) ∧
    (u.laneAt l.val).wskEnd = (match cause with | .complete => 1 | .interrupted => 2 | .preempted => 3) ∧
    ∀ k x, (s.laneAt l.val).wskOp ≠ 3 → k < s.wskPoints l.val (s.laneAt l.val).wskOp → points[k]? = some x →
      (u.laneAt l.val).wskRes.get (0, 0) k =
        wskCount (s.wskLevel l.val) (s.wskOffset l.val (s.laneAt l.val).wskOp k) x)) ∧
  (∀ p d k r l side s, s.still = false → s.pciePath p.val = true → (s.pathAt p.val).retimer ≠ 0 →
    r.val / 2 = (s.pathAt p.val).retimer → k.val < s.dpWidth (s.pathD p.val) →
    side = (if (r.val % 2 = 1) = (s.isDpp p.val .dSide = true) then Side.dSide else .iSide) → l = s.sideLane p.val side k.val →
    (s.electrical p.val side = true →
      completes (.marginingCommand (.path p d k) r .capabilities) s (fun u =>
        (u.laneAt l).marginAns = some (.capabilities (s.marginCaps l)) ∧ (u.laneAt l).margin = (s.laneAt l).margin ∧
        ((s.laneAt l).wskOp = 1 ∨ (s.laneAt l).wskOp = 2 → (u.laneAt l).wskOp = 0 ∧ (u.laneAt l).wskEnd = 3)) ∧
      (∀ left steps, completes (.marginingCommand (.path p d k) r (.timing left steps)) s (fun u =>
        (u.laneAt l).margin = true ∧ ∃ n, (u.laneAt l).marginAns = some (.step (.timing left steps) n))) ∧
      (∀ down steps, completes (.marginingCommand (.path p d k) r (.voltage down steps)) s (fun u =>
        (u.laneAt l).margin = true ∧ ∃ n, (u.laneAt l).marginAns = some (.step (.voltage down steps) n))) ∧
      completes (.marginingCommand (.path p d k) r .normal) s (fun u => (u.laneAt l).margin = false)) ∧
    (s.electrical p.val side = false → ∀ cmd, completes (.marginingCommand (.path p d k) r cmd) s (fun u =>
      (u.pathAt p.val).virtMargin = some .notSupported))) ∧
  (∀ k s, s.still = false → (s.laneAt (128 + k.val)).st = .run →
    completes (.marginingCommand (.store k) 1 .capabilities) s (fun u =>
      (u.laneAt (128 + k.val)).marginAns = some (.capabilities (s.marginCaps (128 + k.val)))))

/-! ### Negotiation, the ladder and training (04) -/

/-- ADV, CONF and HOLD complete (R140, R141, R153). What a received set is, its line bits say. A valid ADV set counts toward a lane's
sets, not its CONF sets, and gives the port its partner's lead and version; the eighth CONF set in a row, when the lane has sent
eight, makes it negotiated, at the position named; HOLD sets keep the instant of the first; an invalid set is counted and starts
the counts again.
HOLD_TIMEOUT, NEGOTIATION_END and PARTNER_CLASSIFY_TIMEOUT complete (R119, R141, R142, R149, R153). A ladder that its partner has held for
100 ms fails; with every lane negotiated, one leader and a ceiling above 2.5 Gb/s the port changes to rate 1, 56 Gb/s; with
no lane negotiated in time it fails; the kind found is recorded, and one that does not fit stops the side as miscabled. -/
def Obligations.NegotiationCompletes : Prop :=
  (∀ t l bits inv b ip k s, s.still = false → l.val < 64 → s.portOfLane l.val = some (ip, k) → s.climbing ip = true →
    (s.portAt ip).lad.step = 1 → setDecode bits = some (inv, b) → setValid (negSetOf b) = true → (negSetOf b).setType = 1 →
    completes (.adv l ⟨t, bits⟩) s (fun u =>
      (u.ltrAt l.val).setRx = min 8 ((s.ltrAt l.val).setRx + 1) ∧ (u.ltrAt l.val).confRx = 0 ∧
      (u.ltrAt l.val).peerSet = some (negSetOf b) ∧ (u.ltrAt l.val).partnerPrec = (negSetOf b).caps.getLsbD 0 ∧
      (u.portAt ip).lad.hold = none ∧ (u.portAt ip).lad.partnerLead = (negSetOf b).caps.getLsbD 1 ∧
      (u.portAt ip).lad.partnerV1 = ((negSetOf b).version == 1))) ∧
  (∀ t l bits inv b ip k c s, s.still = false → l.val < 64 → s.portOfLane l.val = some (ip, k) → s.climbing ip = true →
    (s.portAt ip).lad.step = 1 → setDecode bits = some (inv, b) → setValid (negSetOf b) = true → (negSetOf b).setType = 2 →
    s.setIdentity ip l.val (negSetOf b) = true → 7 ≤ (s.ltrAt l.val).confRx → (s.ltrAt l.val).sends = 2 →
    (s.ltrAt l.val).confAt = some c → c + confTime ≤ max s.now t → (s.ltrAt l.val).negotiated = false →
    completes (.conf l ⟨t, bits⟩) s (fun u =>
      (u.ltrAt l.val).negotiated = true ∧ (u.laneAt l.val).pos = some (negSetOf b).pos.toNat)) ∧
  (∀ t l bits inv b ip k s, s.still = false → l.val < 64 → s.portOfLane l.val = some (ip, k) → s.climbing ip = true →
    setDecode bits = some (inv, b) → setValid (negSetOf b) = true → (negSetOf b).setType = 3 →
    (s.noLadder = true ∨ s.calm = true ∧ inv = (s.laneAt l.val).rxInv) → completes (.hold l ⟨t, bits⟩) s (fun u =>
      (u.portAt ip).lad.hold = (s.portAt ip).lad.hold.or (some (max s.now t)) ∧
      (u.portAt ip).lad.step = (s.portAt ip).lad.step)) ∧
  (∀ t l bits ip k s, s.still = false → l.val < 64 → s.portOfLane l.val = some (ip, k) → s.climbing ip = true →
    (∀ inv b, setDecode bits = some (inv, b) → setValid (negSetOf b) = false) →
    completes (.adv l ⟨t, bits⟩) s (fun u =>
      (u.portAt ip).lad.badSets = satAdd (2 ^ 32 - 1) (s.portAt ip).lad.badSets 1 ∧ (u.ltrAt l.val).setRx = 0)) ∧
  (∀ t ip h s, s.still = false → s.climbing ip.val = true → (s.portAt ip.val).lad.hold = some h → h + 100 * ms ≤ max s.now t →
    completes (.holdTimeout ⟨t, ip⟩) s (fun u => (u.portAt ip.val).lad.step = 9 ∧ (u.portAt ip.val).lad.hold = none ∧
      ∀ n, s.pathOfI ip.val = some n → (u.pathAt n).iTrain = 3)) ∧
  (∀ t ip s, s.still = false → s.advances ip.val = true → (s.portAt ip.val).lad.step = 1 → s.ladderKeeps = true →
    1 ≤ s.ipLanes ip.val → (∀ k ∈ s.ipPositions ip.val, (s.ltrAt (s.cfgLane ip.val k)).negotiated = true) →
    (∀ r ∈ [1, 2, 3], s.needAt ip.val r ≤ s.ipLanes ip.val) → s.ladLead ip.val ≠ (s.portAt ip.val).lad.partnerLead →
    1 ≤ s.ladMax ip.val → 1 ≤ (s.portAt ip.val).lad.partnerMax → completes (.negotiationEnd t ip) s (fun u =>
      (u.portAt ip.val).lad.step = 2 ∧ (u.portAt ip.val).lad.changing = some 1 ∧
      (u.portAt ip.val).lad.ceiling = min (min (s.ladMax ip.val) (s.portAt ip.val).lad.partnerMax)
        (if (s.portAt ip.val).lad.partnerV1 then 2 else 3) ∧
      (u.portAt ip.val).lad.eligible = posMask (s.ipPositions ip.val))) ∧
  (∀ t ip s, s.still = false → s.advances ip.val = true → (s.portAt ip.val).lad.step = 1 →
    (∀ k ∈ s.ipPositions ip.val, (s.ltrAt (s.cfgLane ip.val k)).negotiated = false ∧ (s.ltrAt (s.cfgLane ip.val k)).confRx < 8) →
    (s.portAt ip.val).lad.since + 10 * ms ≤ max s.now t →
    completes (.negotiationEnd t ip) s (fun u => (u.portAt ip.val).lad.step = 9)) ∧
  (∀ l kind n s, s.still = false → s.pathOfLane l.val = some n → l.val < 64 → s.advances (s.pathI n) = true →
    (s.portAt (s.pathI n)).lad.step = 1 → (s.ltrAt l.val).setRx = 0 →
    completes (.partnerClassifyTimeout l kind) s (fun u => (u.pathAt n).kindI = kind.val ∧
      (kind = 2 ∨ kind = 3 → (u.pathAt n).miscI = true ∧ (u.pathAt n).iTrain = 3 ∧ (u.portAt (s.pathI n)).lad.step = 9))) ∧
  (∀ l kind n s, s.still = false → s.pathOfLane l.val = some n → 64 ≤ l.val → (s.pathAt n).dTrain = 1 →
    completes (.partnerClassifyTimeout l kind) s (fun u => (u.pathAt n).kindD = kind.val ∧
      (kind = 1 → (u.pathAt n).miscD = true)))

/-- TRAINING_FRAME and RATE_CHANGE_IDLE_END complete (R143, R145, R146, R148). A frame that follows another at its spacing and brings a new
request sequence is applied once: the taps become what tap_request gives, with its status; frames with rx_ready are counted to 16.
When the idle of a rate change ends the port runs the new rate and its lanes begin the handshake afresh.
OFFER, ACCEPT, DECLINE, DONE and LADDER_STEP_TIMEOUT complete (R148, R149, R164). The follower answers the offer of the next rate with an
acceptance up to its maximum and declines one above; the leader climbs on an acceptance and ends the ladder on a refusal if its
rate suffices with the lanes that may carry flits; DONE ends the follower's; a step 6 or 7 that takes too long falls back one rate
once, and then fails. -/
def Obligations.TrainingFramesAndLadderComplete : Prop :=
  (∀ l pos levels inv c ip k s, s.still = false → s.portOfLane l.val = some (ip, k) → frameDecode levels = some (inv, c) →
    (s.portAt ip).lad.step = 3 → (s.portAt ip).lad.changing = none → s.advances ip = true →
    Nat.testBit (s.portAt ip).lad.eligible.toNat k = true → s.receives l.val = true → (s.ltrAt l.val).frm ≠ .search →
    pos = (s.ltrAt l.val).frmPos + frameSpacing → ctrlBits (BitVec.ofNat 64 c) 53 52 ≠ 3 →
    ctrlBits (BitVec.ofNat 64 c) 53 52 + 1 = (s.portAt ip).lad.rate →
    (s.ltrAt l.val).reqSeq ≠ some (ctrlBits (BitVec.ofNat 64 c) 35 32) → completes (.trainingFrame l pos levels) s (fun u =>
      (u.laneAt l.val).taps = (tapRequest ((s.laneAt l.val).frozen || s.fixedTaps l.val) (ctrlBits (BitVec.ofNat 64 c) 51 49)
        (ctrlBits (BitVec.ofNat 64 c) 47 36) (s.laneAt l.val).taps).1 ∧
      (u.ltrAt l.val).tapStatus = BitVec.ofNat 12 (tapRequest ((s.laneAt l.val).frozen || s.fixedTaps l.val)
        (ctrlBits (BitVec.ofNat 64 c) 51 49) (ctrlBits (BitVec.ofNat 64 c) 47 36) (s.laneAt l.val).taps).2.1 ∧
      (u.ltrAt l.val).reqSeq = some (ctrlBits (BitVec.ofNat 64 c) 35 32) ∧
      (u.ltrAt l.val).statusSeq = BitVec.ofNat 4 (ctrlBits (BitVec.ofNat 64 c) 35 32) ∧
      (u.ltrAt l.val).readyRx = (if (BitVec.ofNat 64 c).getLsbD 48 then min 16 ((s.ltrAt l.val).readyRx + 1) else 0))) ∧
  (∀ ip r s, s.still = false → s.advances ip.val = true → s.ladderKeeps = true → (s.portAt ip.val).lad.changing = some r →
    completes (.rateChangeIdleEnd ip) s (fun u =>
      (u.portAt ip.val).lad.rate = r ∧ (u.portAt ip.val).lad.changing = none ∧ (u.portAt ip.val).lad.since = s.now ∧
      ∀ k ∈ s.ipPositions ip.val, (u.ltrAt (s.cfgLane ip.val k)).reqSeq = none ∧ (u.ltrAt (s.cfgLane ip.val k)).readyRx = 0 ∧
        (u.ltrAt (s.cfgLane ip.val k)).switched = false)) ∧
  (∀ ip rate s, s.still = false → s.climbing ip.val = true → s.ladderKeeps = true → s.ladLead ip.val = false →
    (s.portAt ip.val).lad.step = 7 → rate.val = (s.portAt ip.val).lad.rate + 1 → rate.val ≤ s.ladMax ip.val →
    (∀ m ∈ (s.portAt ip.val).lad.sends, m.2.1 ≠ rate.val) → completes (.offer ip rate) s (fun u =>
      (u.portAt ip.val).lad.sends = [(6, rate.val, 0)] ∧ (u.portAt ip.val).lad.sendDue.get 0 6 = 0x3FFFF ∧
      (u.portAt ip.val).lad.step = 7 ∧ (u.portAt ip.val).lad.rate = (s.portAt ip.val).lad.rate)) ∧
  (∀ ip rate s, s.still = false → s.climbing ip.val = true → s.ladLead ip.val = false →
    (s.portAt ip.val).lad.step = 7 → rate.val = (s.portAt ip.val).lad.rate + 1 → s.ladMax ip.val < rate.val →
    (∀ m ∈ (s.portAt ip.val).lad.sends, m.2.1 ≠ rate.val) → completes (.offer ip rate) s (fun u =>
      (u.portAt ip.val).lad.step = 7 ∧ (u.portAt ip.val).lad.sendDue.get 0 7 = 0x3FFFF ∧
      (s.noLadder = true → (u.portAt ip.val).lad.sends = [(7, rate.val, 0)]))) ∧
  (∀ ip rate s, s.still = false → s.climbing ip.val = true → s.ladderKeeps = true → s.ladLead ip.val = true →
    (s.portAt ip.val).lad.step = 7 → rate.val = (s.portAt ip.val).lad.rate + 1 → completes (.accept ip rate) s (fun u =>
      (u.portAt ip.val).lad.step = 2 ∧ (u.portAt ip.val).lad.changing = some rate.val)) ∧
  (∀ ip rate s, s.still = false → s.climbing ip.val = true → s.ladLead ip.val = true → (s.portAt ip.val).lad.step = 7 →
    rate.val = (s.portAt ip.val).lad.rate + 1 → s.suffices ip.val (s.portAt ip.val).lad.rate = true →
    ((slowFallback ip.val s).portAt ip.val).lad.rate = (s.portAt ip.val).lad.rate →
    s.needAt ip.val (s.portAt ip.val).lad.rate ≤
      ((positions (s.portAt ip.val).lad.eligible).filter (fun k =>
        (slowFallback ip.val s).mayCarry ((slowFallback ip.val s).ipLane ip.val k))).length →
    completes (.decline ip rate) s (fun u =>
      (u.portAt ip.val).lad.step = 8 ∧ (u.portAt ip.val).up = true ∧
      (u.portAt ip.val).lad.stored = some (s.portAt ip.val).lad.rate)) ∧
  (∀ ip rate mask s, s.still = false → s.climbing ip.val = true → s.ladLead ip.val = false → (s.portAt ip.val).lad.step = 7 →
    (s.portAt ip.val).lad.rate = rate.val → s.suffices ip.val rate.val = true →
    s.needAt ip.val rate.val ≤ ((positions ((s.portAt ip.val).lad.eligible &&& mask)).filter (fun k =>
      s.mayCarry (s.ipLane ip.val k))).length →
    completes (.done ip rate mask) s (fun u =>
      (u.portAt ip.val).lad.step = 8 ∧ (u.portAt ip.val).up = true ∧ (u.portAt ip.val).lad.stored = some rate.val ∧
      (u.portAt ip.val).lad.eligible = (s.portAt ip.val).lad.eligible &&& mask)) ∧
  (∀ ip s, s.still = false → s.advances ip.val = true → s.ladderKeeps = true →
    ((s.portAt ip.val).lad.step = 6 ∨ (s.portAt ip.val).lad.step = 7) →
    (s.portAt ip.val).lad.resumed = false → completes (.ladderStepTimeout ip) s (fun u =>
      if (s.portAt ip.val).lad.fellBack = true ∨ (s.portAt ip.val).lad.rate ≤ 1 then (u.portAt ip.val).lad.step = 9
      else (u.portAt ip.val).lad.step = 2 ∧ (u.portAt ip.val).lad.changing = some ((s.portAt ip.val).lad.rate - 1) ∧
        (u.portAt ip.val).lad.fellBack = true))

/-- PRECODE, PRECODE_ACK and PRECODE_START complete (R150): the transmitter grants the requests for which precoding was exchanged and
answers with the grant; the own requests granted are noted; on a granted lane precoding takes force.
TEST_START, PRBS_TEST_END and TEST_RESULT complete (R148, R151): the follower's test begins; its result is kept and sent until the
partner's is known; a follower with both results goes on to step 7 with the positions that pass both ways. -/
def Obligations.PrecodingAndLineTestComplete : Prop :=
  (∀ ip mask s, s.still = false → s.climbing ip.val = true → s.ladderKeeps = true → (s.portAt ip.val).lad.step = 5 →
    (s.portAt ip.val).lad.precAck = none → completes (.precode ip mask) s (fun u =>
      let grant := mask &&& s.passing ip.val (fun l => (s.ltrAt l).partnerPrec)
      (u.portAt ip.val).lad.precPeer = some grant ∧ (2, (s.portAt ip.val).lad.rate, grant) ∈ (u.portAt ip.val).lad.sends)) ∧
  (∀ ip mask s, s.still = false → s.advances ip.val = true → (s.portAt ip.val).lad.step = 5 →
    (s.portAt ip.val).lad.fellBack = false → completes (.precodeAck ip mask) s (fun u =>
      (u.portAt ip.val).lad.precAcked = true ∧ (u.portAt ip.val).lad.precAck =
        some (mask &&& (s.portAt ip.val).lad.precReq.getD 0 &&& (s.portAt ip.val).lad.eligible))) ∧
  (∀ ip pos tx rx s, s.still = false → s.advances ip.val = true → s.ladderKeeps = true →
    (s.portAt ip.val).lad.fellBack = false → (s.portAt ip.val).lad.precPeer = some tx →
    (s.portAt ip.val).lad.precAck = some rx → completes (.precodeStart ip pos) s (fun u =>
      (u.laneAt (s.ipLane ip.val pos.val)).precTx =
        ((s.laneAt (s.ipLane ip.val pos.val)).precTx || Nat.testBit tx.toNat pos.val) ∧
      (u.laneAt (s.ipLane ip.val pos.val)).precRx =
        ((s.laneAt (s.ipLane ip.val pos.val)).precRx || Nat.testBit rx.toNat pos.val))) ∧
  (∀ ip rate s, s.still = false → s.climbing ip.val = true → s.ladLead ip.val = false →
    (s.portAt ip.val).lad.rate = rate.val → (s.portAt ip.val).lad.step = 6 → completes (.testStart ip rate) s (fun u =>
      (u.portAt ip.val).lad.step = 6 ∧ (u.portAt ip.val).lad.testing = true ∧ (u.portAt ip.val).lad.since = s.now)) ∧
  (∀ ip results s, s.still = false → s.advances ip.val = true → s.ladderKeeps = true → (s.portAt ip.val).lad.step = 6 →
    (s.portAt ip.val).lad.testPeer = none → completes (.prbsTestEnd ip results) s (fun u =>
      let m := posMask ((results.filter (fun r => r.uncorrectable == 0 && r.crcFails == 0 && r.bitErrors == 0 &&
        decide (r.corrected ≤ s.fecMax ip.val))).map (·.pos.val)) &&& (s.portAt ip.val).lad.eligible
      (u.portAt ip.val).lad.testOwn = some m ∧ (4, (s.portAt ip.val).lad.rate, m) ∈ (u.portAt ip.val).lad.sends)) ∧
  (∀ ip rate mask own s, s.still = false → s.climbing ip.val = true → s.ladLead ip.val = false →
    (s.portAt ip.val).lad.step = 6 → (s.portAt ip.val).lad.rate = rate.val → (s.portAt ip.val).lad.testOwn = some own →
    s.stepNeed ip.val rate.val ≤ popCount (own &&& mask &&& (s.portAt ip.val).lad.eligible) →
    completes (.testResult ip rate mask) s (fun u =>
      (u.portAt ip.val).lad.step = 7 ∧ (u.portAt ip.val).lad.eligible = own &&& mask &&& (s.portAt ip.val).lad.eligible))

/-- TS_ORDERED_SET, EQ_EVALUATION_END, ELECTRICAL_IDLE_ENTRY and EXIT, SKP_ORDERED_SET and LINK_DOWN complete (R119, R121, R125, R129, R130,
R135, R224). A set of the DUT shows a PCIe partner and its lane number; in the Guard family the equalisation phase moves on once the
D side's receivers have finished; electrical idle is kept per lane and direction; SKP adjustments add up; a link that leaves its
active state raises link_down. -/
def Obligations.PcieTrainingCompletes : Prop :=
  (∀ t p k inv ts s, s.still = false → s.pciePath p.val = true → k.val < s.dpWidth (s.pathD p.val) →
    completes (.tsOrderedSet t (.path p .toI k) inv ts) s (fun u => (u.pathAt p.val).kindD = 2 ∧
      ∀ v, ts.laneNum = some v → (u.laneAt (s.sideLane p.val .dSide k.val)).peerLane = v)) ∧
  (∀ t (l : Fin 16) inv ts v s, s.still = false → (s.laneAt (128 + l.val)).st = .run → ts.laneNum = some v →
    completes (.tsOrderedSet t (.store l) inv ts) s (fun u => (u.laneAt (128 + l.val)).peerLane = v)) ∧
  (∀ t p s, s.still = false → s.pciePath p.val = true → (s.pathAt p.val).mode ≠ .pass →
    completes (.eqEvaluationEnd t p .dSide) s (fun u => ∀ l ∈ s.sideLanes p.val .dSide,
      (u.ltrAt l).eqDone = false ∧ (u.ltrAt l).outWait = false ∧
      (u.ltrAt l).eqPhase = (s.ltrAt l).eqPhase.map (fun k => min 3 (k + 1)))) ∧
  (∀ p d mask k o s, s.still = false → s.pathEn p.val = true →
    ((s.pathAt p.val).mode = .pass ∨ (s.pathAt p.val).mode.guardFam = true) →
    completes (.electricalIdleEntry p d mask k o) s (fun u =>
      if d = .toD then (u.pathAt p.val).eiToD =
        (if (s.pathAt p.val).mode = .pass then (s.pathAt p.val).eiToD ||| mask else (s.pathAt p.val).eiToD)
      else (u.pathAt p.val).eiToI = (s.pathAt p.val).eiToI ||| mask) ∧
    completes (.electricalIdleExit p d mask k o) s (fun u =>
      if d = .toD then (u.pathAt p.val).eiToD =
        (if (s.pathAt p.val).mode = .pass then (s.pathAt p.val).eiToD &&& ~~~mask else (s.pathAt p.val).eiToD)
      else (u.pathAt p.val).eiToI = (s.pathAt p.val).eiToI &&& ~~~mask)) ∧
  (∀ t p d (n : Nat) (a : Int) bits s, s.still = false → s.pciePath p.val = true →
    ((s.pathAt p.val).mode = .pass ∨ d = .toI) → 0 ≤ (n : Int) + a →
    completes (.skpOrderedSet t p d ⟨n, a, bits⟩) s (fun u => (u.pathAt p.val).skp = (s.pathAt p.val).skp + a)) ∧
  (∀ p s, s.still = false → s.pathEn p.val = true → (s.pathAt p.val).dTrain = 2 → s.armed (srcPath p.val 9) = true →
    completes (.linkDown p) s (fun u => s.raisedIn (srcPath p.val 9) u))

/-- AN_PAGE, SEGMENT_TRAINING_COMPLETE, LINK_ACTIVE and TRAINING_TIMEOUT complete (R119, R137, R138, R139, R176, R177). A page of the DUT
shows an Ethernet partner; the D segment is ready when its training is complete, and the I segment only after it; a path whose
links are active is STEADY; a side that trains too long raises training_fail. -/
def Obligations.EthernetAndLinkActiveComplete : Prop :=
  (∀ p page r s, s.still = false → s.ethPath p.val = true →
    completes (.anPage p .toI page r) s (fun u => (u.pathAt p.val).kindD = 3)) ∧
  (∀ p s, s.still = false → s.ethPath p.val = true → (s.pathAt p.val).dTrain = 1 →
    completes (.segmentTrainingComplete p .dSide ⟨0, 0, []⟩) s (fun u => (u.pathAt p.val).segReady = true)) ∧
  (∀ p res s, s.still = false → s.ethPath p.val = true → (s.pathAt p.val).dTrain = 1 →
    completes (.segmentTrainingComplete p .dSide res) s (fun u =>
      (u.pathAt p.val).safe = false → (u.pathAt p.val).segReady = true)) ∧
  (∀ p res s, s.still = false → s.ethPath p.val = true → (s.pathAt p.val).mode = .pass →
    (s.pathAt p.val).segReady = true →
    (s.pathAt p.val).iTrain = 1 → completes (.segmentTrainingComplete p .iSide res) s (fun u => (u.pathAt p.val).iTrain = 2)) ∧
  (∀ t p s, s.still = false → s.pathEn p.val = true → (s.pathAt p.val).safe = false → (s.pathAt p.val).phase = .train →
    completes (.linkActive t p) s (fun u => (u.pathAt p.val).phase = .steady ∧ (u.pathAt p.val).retrain = false ∧
      (u.pathAt p.val).mode = (s.pathAt p.val).mode ∧ ((s.pathAt p.val).mode = .pass → (u.pathAt p.val).iTrain = 2))) ∧
  (∀ p s, s.still = false → s.pathEn p.val = true → (s.pathAt p.val).mode = .pass → (s.pathAt p.val).iTrain = 1 →
    completes (.trainingTimeout p .iSide) s (fun u => (u.pathAt p.val).iTrain = 3)) ∧
  (∀ p s, s.still = false → s.pathEn p.val = true → (s.pathAt p.val).dTrain = 1 → (s.pathAt p.val).miscD = false →
    s.armed (srcPath p.val 6) = true → completes (.trainingTimeout p .dSide) s (fun u => s.raisedIn (srcPath p.val 6) u))

/-! ### Received flits (06, 07, 14) -/

/-- DATA, LINE_EVENT and REFUSE complete (R200, R202, R208, R221, R223): the next flit in sequence moves ack_seq over it. A DATA flit of the
expected tunnel index takes a cell with its interval and payload; a line event of a running tunnel waits in a cell; the ranges that
the partner refused are kept. -/
def Obligations.TunnelFlitsComplete : Prop :=
  (∀ t ip f units n h pl s, s.receivesNext ip.val f n 1 0 = true → s.flitHead ip.val f = some (h, pl) →
    (s.pathAt n).mode.guardFam = true →
    (s.pathAt n).phase ≠ .drain → (s.pathAt n).safe = false → (s.portAt ip.val).link.tunnel = 1 →
    h.lf % 128 = (s.portAt ip.val).link.rxCount % 128 → completes (.data t ip f units) s (fun u =>
      (u.portAt ip.val).link.ack = (s.portAt ip.val).link.ack + 1 ∧
      (units = [] → (s.pathAt n).mode = .guard → s.calm = true →
        (u.portAt ip.val).link.rxCount = ((s.portAt ip.val).link.rxCount + 1) % 2 ^ 32 ∧
        ∃ c : RxCell, (u.portAt ip.val).link.cells =
          [{ c with seq := h.seq, typ := 1, cls := 0, interval := (s.portAt ip.val).link.rxCount, payload := fit 256 0 pl,
                    readyAt := max s.now t }]))) ∧
  (∀ t ip f n h pl s, s.receivesNext ip.val f n 2 1 = true → s.flitHead ip.val f = some (h, pl) →
    (s.portAt ip.val).link.tunnel = 1 →
    completes (.lineEvent t ip f) s (fun u => (u.portAt ip.val).link.ack = (s.portAt ip.val).link.ack + 1 ∧
      ((s.pathAt n).mode = .guard → s.calm = true → ∃ c : RxCell,
        (u.portAt ip.val).link.cells = [{ c with seq := h.seq, typ := 2, cls := 1, payload := fit 256 0 pl }]))) ∧
  (∀ t ip f n h pl s, s.receivesNext ip.val f n 2 2 = true → s.flitHead ip.val f = some (h, pl) →
    (s.portAt ip.val).link.peerRefused = [] →
    completes (.refuse t ip f) s (fun u => (u.portAt ip.val).link.ack = (s.portAt ip.val).link.ack + 1 ∧
      (u.portAt ip.val).link.peerRefused = refuseRanges pl))

/-- FAULT_FLIT, MARK, MAILBOX_FLIT and SCHED_CTRL_FLIT complete (R227, R233, R234, R494, R495, R534): each moves ack_seq over it; a MARK
writes its entry; a mailbox message joins the port's inbound queue; a SCHED flit's operations take effect with origin 6. -/
def Obligations.ControlFlitsComplete : Prop :=
  (∀ t ip f n h pl s, s.receivesNext ip.val f n 6 0 = true → s.flitHead ip.val f = some (h, pl) → field pl 3 1 % 4 ≠ 2 →
    completes (.faultFlit t ip f) s (fun u =>
    (u.portAt ip.val).link.ack = (s.portAt ip.val).link.ack + 1)) ∧
  (∀ t ip f n h pl s, s.receivesNext ip.val f n 7 0 = true → s.flitHead ip.val f = some (h, pl) → s.room 1 = true →
    completes (.mark t ip f) s (fun u => (u.portAt ip.val).link.ack = (s.portAt ip.val).link.ack + 1 ∧
      u.logged 0x13 (.ctrlFlit ip) 1 (field pl 0 4) (field pl 4 1 / 128))) ∧
  (∀ t ip f n h pl s, s.receivesNext ip.val f n 2 6 = true → s.flitHead ip.val f = some (h, pl) → s.gon.fwReady = true →
    (s.mbAt (1 + ip.val)).inQ.length < 8 → completes (.mailboxFlit t ip f) s (fun u =>
      (u.portAt ip.val).link.ack = (s.portAt ip.val).link.ack + 1 ∧
      (u.mbAt (1 + ip.val)).inQ = (s.mbAt (1 + ip.val)).inQ ++ [msgOf pl])) ∧
  (∀ t ip f n h pl s, s.receivesNext ip.val f n 2 5 = true → s.flitHead ip.val f = some (h, pl) → s.room 1 = true →
    s.fatalRefuses (.ctrlFlit ip) = false → field pl 0 1 = 1 → field (entryAt pl 16 24 0) 0 1 = 4 →
    (s.schedAt (field (entryAt pl 16 24 0) 2 2 % 1024)).valid = false → completes (.schedCtrlFlit t ip f) s (fun u =>
      (u.portAt ip.val).link.ack = (s.portAt ip.val).link.ack + 1 ∧ u.sched.result = 7))

/-- EXPECT_CHUNK, UPLOAD, CAPTURE_RELEASE and STATUS_REQ complete (R274, R275). A chunk of the record being assembled is kept; an upload
of a stream of the path begins at its first number; a release moves the stream's released number on; a request is answered with
the stream's STATUS. -/
def Obligations.SpoolFlitsComplete : Prop :=
  (∀ t ip f n h pl k i j s, s.receivesNext ip.val f n 2 9 = true → s.flitHead ip.val f = some (h, pl) → k = field pl 2 2 →
    i = field pl 1 1 → (s.strmAt k).next ≤ field pl 4 8 → (s.strmAt k).chunkSeq = field pl 4 8 →
    j < 18 → j ≠ i → (s.strmAt k).chunks.get [] j = [] → completes (.expectChunk t ip f) s (fun u =>
      (u.strmAt k).chunkSeq = field pl 4 8 ∧
      (u.strmAt k).chunks.get [] i = (pl.drop 16).take (if i = 17 then 16 else 240))) ∧
  (∀ t ip f n h pl k s, s.receivesNext ip.val f n 2 8 = true → s.flitHead ip.val f = some (h, pl) → field pl 0 1 = 1 →
    k = field pl 2 2 → s.stEn k = true → s.leadOf (s.stPath k) = n → field pl 12 2 ≠ 0 →
    completes (.upload t ip f) s (fun u => (u.strmAt k).upChunk = 0 ∧
      (u.strmAt k).upload = some (field pl 4 8, field pl 4 8 + field pl 12 2 - 1))) ∧
  (∀ t ip f n h pl k s, s.receivesNext ip.val f n 2 8 = true → s.flitHead ip.val f = some (h, pl) → field pl 0 1 = 2 →
    k = field pl 2 2 → s.stEn k = true → s.leadOf (s.stPath k) = n → 2 ≤ s.stRole k → s.stRole k ≤ 4 →
    completes (.captureRelease t ip f) s (fun u =>
      (u.strmAt k).released = max (s.strmAt k).released (field pl 4 8))) ∧
  (∀ t ip f n h pl k s, s.receivesNext ip.val f n 2 8 = true → s.flitHead ip.val f = some (h, pl) → field pl 0 1 = 3 →
    k = field pl 2 2 → s.calm = true → completes (.statusReq t ip f) s (fun u =>
      ∃ x ∈ (u.portAt (s.pathI n)).link.wait, x.typ = 2 ∧ x.cls = 8 ∧ x.payload = s.statusMsg k))

/-- IDLE, ACK, NAK and BEATECHO complete (R193, R200, R201, R203, R205, R231): each shows the link alive and carries the newest
acknowledgement; the bits of an ACK flit mark flits accepted out of order, a SEQ entry makes the flits of its range due again, and
an echo's number is kept, for the answer where it asks for one. -/
def Obligations.UnsequencedFlitsComplete : Prop :=
  (∀ t ip f n h pl s, s.hearsFlit ip.val f n (ofType 5 0) = true → s.flitHead ip.val f = some (h, pl) →
    seqBefore h.ack (s.portAt ip.val).link.peerAck = false → completes (.idle t ip f) s (fun u =>
      (u.portAt ip.val).link.heardAt = max s.now t ∧ (u.portAt ip.val).link.peerAck = h.ack ∧
      (u.portAt ip.val).link.unres = (s.portAt ip.val).link.unres.filter (fun x => !seqUpTo x.seq h.ack))) ∧
  (∀ t ip f n h pl s, s.hearsFlit ip.val f n (ofType 3 0) = true → s.flitHead ip.val f = some (h, pl) →
    h.ack = (s.portAt ip.val).link.peerAck → completes (.ack t ip f) s (fun u =>
      ∀ x ∈ (u.portAt ip.val).link.unres, seqDist (h.ack + 1) x.seq < 2048 →
        bitAt pl (seqDist (h.ack + 1) x.seq) = true → x.sel = true)) ∧
  (∀ t ip f n h pl a b s, s.hearsFlit ip.val f n (ofType 4 0) = true → s.flitHead ip.val f = some (h, pl) →
    nakEntries h pl = some [.seq a b] → completes (.nak t ip f) s (fun u =>
      ∀ x ∈ (u.portAt ip.val).link.unres, inRange x.seq (a, b) = true → x.due = true)) ∧
  (∀ t ip f n h pl s, s.hearsFlit ip.val f n (ofType 8 0) = true → s.flitHead ip.val f = some (h, pl) →
    completes (.beatEcho t ip f) s (fun u =>
    (u.portAt ip.val).cnt.peerBeat = BitVec.ofNat 64 (field pl 0 8) ∧
    (u.portAt ip.val).link.echoRx = BitVec.ofNat 32 (field pl 8 4) ∧
    (field pl 16 1 = 0 → (u.portAt ip.val).link.echoAns = some (BitVec.ofNat 32 (field pl 8 4)))))

/-- TUNNEL_START, START_ACK, RESUME and RESUME_ACK complete (R195, R225, R235, R236). A START that is no repeat is answered, and the tunnel
of a Guard-family path outside its safe state and DRAIN runs from interval 0; the answer to the device's own START ends its
repetition; a RESUME during a resume is noted and answered, and so is its acknowledgement.
DROP, DROP_ACK, SWAP, SWAP_ACK and SWAP_REFUSE complete (R165, R167, R168, R216, R217, R218). A position that the partner drops is no
longer active and the drop is answered; its answer ends the own message; a swap that fits exchanges the two positions and is
answered; an own swap is ended by its answer, or undone by its refusal: the position that it brought in returns to the pool. -/
def Obligations.TunnelAndSpareMessagesComplete : Prop :=
  (∀ t ip f n h pl s, s.hearsFlit ip.val f n (ofType 2 3) = true → s.flitHead ip.val f = some (h, pl) →
    field pl 0 1 = 1 →
    (s.portAt ip.val).link.repeats pl = false → (s.portAt ip.val).link.fresh = true →
    (s.pathAt n).mode.guardFam = true → (s.pathAt n).safe = false → (s.pathAt n).phase ≠ .drain → s.calm = true →
    completes (.tunnelStart t ip f) s (fun u =>
      (u.portAt ip.val).link.tunnel = 1 ∧ (u.portAt ip.val).link.rxCount = 0 ∧ (u.portAt ip.val).link.fresh = false ∧
      (u.portAt ip.val).link.tunAns = some (2, 1, 0, 0) ∧ (u.pathAt n).playNext = 0 ∧ (u.pathAt n).packK = 0)) ∧
  (∀ t ip f n h pl x s, s.hearsFlit ip.val f n (ofType 2 3) = true → s.flitHead ip.val f = some (h, pl) →
    field pl 0 1 = 2 →
    (s.portAt ip.val).link.repeats pl = false → (s.portAt ip.val).link.fresh = true →
    (s.portAt ip.val).link.tunMsg = some (1, x) → completes (.startAck t ip f) s (fun u =>
      (u.portAt ip.val).link.tunMsg = none ∧ (u.portAt ip.val).link.fresh = false)) ∧
  (∀ t ip f n h pl s, s.hearsFlit ip.val f n (ofType 2 3) = true → s.flitHead ip.val f = some (h, pl) →
    field pl 0 1 = 3 →
    (s.portAt ip.val).link.repeats pl = false → freshFlag pl = false → (s.portAt ip.val).link.tunnel = 2 →
    (s.portAt ip.val).link.resAcked = false → completes (.resume t ip f) s (fun u =>
      (u.portAt ip.val).link.resGot = true ∧ (u.portAt ip.val).link.tunAns = some (4, 0, 0, 0))) ∧
  (∀ t ip f n h pl x s, s.hearsFlit ip.val f n (ofType 2 3) = true → s.flitHead ip.val f = some (h, pl) →
    field pl 0 1 = 4 →
    (s.portAt ip.val).link.repeats pl = false → (s.portAt ip.val).link.tunMsg = some (3, x) →
    completes (.resumeAck t ip f) s (fun u =>
      (u.portAt ip.val).link.tunMsg = none ∧ (u.portAt ip.val).link.resAcked = true)) ∧
  (∀ t ip f n h pl s, s.hearsFlit ip.val f n (ofType 2 4) = true → s.flitHead ip.val f = some (h, pl) →
    field pl 0 1 = 1 →
    (s.portAt ip.val).spareRx.get none (32 * field pl 0 1 + field pl 1 1) ≠ some (pl.take 16) →
    s.waitingSpare ip.val 1 (spareOf pl).out = none →
    completes (.drop t ip f) s (fun u =>
      hasPos (u.portAt ip.val).active (spareOf pl).out = false ∧
      hasPos (u.portAt ip.val).dropped (spareOf pl).out = true ∧
      ∃ m ∈ (u.portAt ip.val).spareAns, m.op = 2 ∧ m.out = (spareOf pl).out)) ∧
  (∀ t ip f n h pl w s, s.hearsFlit ip.val f n (ofType 2 4) = true → s.flitHead ip.val f = some (h, pl) →
    field pl 0 1 = 2 →
    (s.portAt ip.val).spareRx.get none (32 * field pl 0 1 + field pl 1 1) ≠ some (pl.take 16) →
    s.waitingSpare ip.val 1 (spareOf pl).out = some w →
    completes (.dropAck t ip f) s (fun u => (u.portAt ip.val).spare = (s.portAt ip.val).spare.erase w)) ∧
  (∀ t ip f n h pl s, s.hearsFlit ip.val f n (ofType 2 4) = true → s.flitHead ip.val f = some (h, pl) →
    field pl 0 1 = 3 →
    (s.portAt ip.val).spareRx.get none (32 * field pl 0 1 + field pl 1 1) ≠ some (pl.take 16) → (s.portAt ip.val).spare = [] →
    s.swapFits ip.val (spareOf pl).out (spareOf pl).inn = true → completes (.swap t ip f) s (fun u =>
      (u.portAt ip.val).active = ((s.portAt ip.val).active &&& ~~~posBit (spareOf pl).out) ||| posBit (spareOf pl).inn ∧
      (u.portAt ip.val).pool = ((s.portAt ip.val).pool &&& ~~~posBit (spareOf pl).inn) ||| posBit (spareOf pl).out ∧
      ∃ m ∈ (u.portAt ip.val).spareAns, m.op = 4)) ∧
  (∀ t ip f n h pl w s, s.hearsFlit ip.val f n (ofType 2 4) = true → s.flitHead ip.val f = some (h, pl) →
    field pl 0 1 = 4 →
    (s.portAt ip.val).spareRx.get none (32 * field pl 0 1 + field pl 1 1) ≠ some (pl.take 16) →
    s.waitingSpare ip.val 3 (spareOf pl).out = some w →
    completes (.swapAck t ip f) s (fun u => (u.portAt ip.val).spare = (s.portAt ip.val).spare.erase w)) ∧
  (∀ t ip f n h pl w s, s.hearsFlit ip.val f n (ofType 2 4) = true → s.flitHead ip.val f = some (h, pl) →
    field pl 0 1 = 5 →
    (s.portAt ip.val).spareRx.get none (32 * field pl 0 1 + field pl 1 1) ≠ some (pl.take 16) →
    s.waitingSpare ip.val 3 (spareOf pl).out = some w →
    completes (.swapRefuse t ip f) s (fun u => (u.portAt ip.val).spare = (s.portAt ip.val).spare.erase w ∧
      (w.cause ≠ 5 → (u.portAt ip.val).active = (s.portAt ip.val).active &&& ~~~posBit w.inn ∧
        (u.portAt ip.val).pool = (s.portAt ip.val).pool ||| ((s.portAt ip.val).active &&& posBit w.inn))))

/-! ### The link's own doings (06) -/

/-- FLIT_TX_BOUNDARY completes (R79, R196, R198, R199). On a position of the active set with nothing due an IDLE flit leaves and the
position's index moves on; with nothing earlier in the order the first new sequenced flit takes next_seq and is held until it is
resolved.
FLIT_LOST, REPLAY_TIMEOUT, GAP_TIMER and FLIT_MALFORMED complete (R191, R194, R203, R204, R206). A lost flit is counted and asked for
by its lane and index; a flit unacknowledged for replay_ns is due again, and names link_error at its limit; a missing number is asked
for when gap_ns of a later flit's acceptance is over; a malformed flit is counted and raises link_error. -/
def Obligations.FlitBoundariesAndReplayComplete : Prop :=
  (∀ t ip pos bad cor n s, s.still = false → s.linkPath ip.val = some n → hasPos (s.portAt ip.val).active pos.val = true →
    s.pwr.fatal = false → s.dueMsg ip.val pos.val = none → (s.portAt ip.val).link.naks = [] →
    (s.portAt ip.val).link.echoAns = none → (∀ x ∈ (s.portAt ip.val).link.unres, x.due = false) →
    (s.portAt ip.val).link.wait = [] → s.uploads n = [] → (s.portAt ip.val).link.ackDue = false →
    (s.portAt ip.val).link.echoDue = false → completes (.flitTxBoundary t ip pos bad cor) s (fun u =>
      (∃ f, (u.portAt ip.val).line.get none pos.val = some f ∧ f.header = ((s.at t).loose ip.val 5 0 []).header ∧
        f.payload = List.replicate 256 0) ∧
      (u.portAt ip.val).txIdx.get (0, 0) pos.val = nextFlitIdx (s.nextIdx ip.val pos.val) ∧
      (u.portAt ip.val).link.next = (s.portAt ip.val).link.next)) ∧
  (∀ t ip pos bad cor n f s, s.still = false → s.linkPath ip.val = some n → hasPos (s.portAt ip.val).active pos.val = true →
    s.pwr.fatal = false → s.dueMsg ip.val pos.val = none → (s.portAt ip.val).link.naks = [] →
    (s.portAt ip.val).link.echoAns = none → (∀ x ∈ (s.portAt ip.val).link.unres, x.due = false) →
    (s.portAt ip.val).link.wait = [f] → f.poison = false → s.mayFrame ip.val n = true →
    completes (.flitTxBoundary t ip pos bad cor) s (fun u =>
      (u.portAt ip.val).link.next = (s.portAt ip.val).link.next + 1 ∧
      (u.portAt ip.val).txIdx.get (0, 0) pos.val = nextFlitIdx (s.nextIdx ip.val pos.val) ∧
      ∃ g, (u.portAt ip.val).link.unres = (s.portAt ip.val).link.unres ++ [g] ∧ g.seq = (s.portAt ip.val).link.next ∧
        g.typ = f.typ ∧ g.payload = f.payload ∧ g.due = false ∧ g.dueAt = max s.now t + ns * s.replayNs ip.val)) ∧
  (∀ t ip pos sym line f crc n s, s.still = false → f = lineFlit pos sym line → s.linkPath ip.val = some n →
    s.hears ip.val pos.val = true → s.readFlit ip.val f = .lost crc → completes (.flitLost t ip pos sym line) s (fun u =>
      (u.portAt ip.val).link.naks = (s.portAt ip.val).link.naks ++
        [nakWord (.lost pos.val (s.flitIndex ip.val f).n.toNat (s.flitIndex ip.val f).f.toNat)] ∧
      (if crc = true then (u.portAt ip.val).cnt.lostCrc = satAdd (2 ^ 32 - 1) (s.portAt ip.val).cnt.lostCrc 1
       else (u.portAt ip.val).cnt.lostRs = satAdd (2 ^ 32 - 1) (s.portAt ip.val).cnt.lostRs 1))) ∧
  (∀ t ip q n f s, s.still = false → s.linkPath ip.val = some n →
    (s.portAt ip.val).link.unres.find? (fun f => f.seq == q) = some f → f.sel = false → f.dueAt ≤ max s.now t →
    completes (.replayTimeout t ip q) s (fun u =>
      (∀ x ∈ (u.portAt ip.val).link.unres, x.seq = q → x.due = true) ∧
      (s.replayLimit ip.val ≤ f.count → f.limit = false → s.armed (srcPath n 4) = true → s.raisedIn (srcPath n 4) u))) ∧
  (∀ t ip n q g s, s.still = false → s.linkPath ip.val = some n → q ∈ (s.portAt ip.val).link.holes →
    g ∈ (s.portAt ip.val).link.got → seqBefore q g.1 = true → g.2 ≤ max s.now t →
    (∀ x ∈ (s.portAt ip.val).link.nakAt, x.1 ≠ q) → completes (.gapTimer t ip) s (fun u =>
      nakWord (.seq q q) ∈ (u.portAt ip.val).link.naks ∧
      (q, max s.now t + ns * s.gapNs ip.val) ∈ (u.portAt ip.val).link.nakAt)) ∧
  (∀ t ip f n hw pl c s, s.still = false → s.linkPath ip.val = some n → s.hears ip.val f.pos.val = true →
    s.readFlit ip.val f = .got hw pl c → s.flitOk n false (hdrOf hw) pl = false →
    ¬((hdrOf hw).typ = 2 ∧ (hdrOf hw).cls = 0) → completes (.flitMalformed t ip f) s (fun u =>
      (u.portAt ip.val).cnt.malformed = satAdd (2 ^ 32 - 1) (s.portAt ip.val).cnt.malformed 1 ∧
      (s.armed (srcPath n 4) = true → s.raisedIn (srcPath n 4) u)))

/-- ACK_TIMER, ECHO_TIMER, LINK_SILENCE, SPARE_TIMEOUT and CTRL_REPEAT complete (R195, R201, R219, R231, R235, R241). While an accepted flit is
not contiguous an ACK flit is due; an own echo is due every echo_us; 10 µs without a flit and 10 µs without an answer to a SPARE message, or with a partner
that still repeats what was answered, raise link_error; messages not answered are due again on every position. -/
def Obligations.LinkTimersComplete : Prop :=
  (∀ t ip n s, s.still = false → s.linkPath ip.val = some n → (s.portAt ip.val).link.got ≠ [] →
    (s.portAt ip.val).link.ackNext ≤ max s.now t → completes (.ackTimer t ip) s (fun u =>
      (u.portAt ip.val).link.ackDue = true ∧ (u.portAt ip.val).link.ackNext = max s.now t + us)) ∧
  (∀ t ip n s, s.still = false → s.linkPath ip.val = some n → (s.portAt ip.val).link.echoNext ≤ max s.now t →
    completes (.echoTimer t ip) s (fun u => (u.portAt ip.val).link.echoDue = true ∧
      (u.portAt ip.val).link.echoNext = max s.now t + us * s.echoUs ip.val)) ∧
  (∀ t ip n s, s.still = false → s.linkPath ip.val = some n → (s.portAt ip.val).link.silent = false →
    (s.portAt ip.val).link.heardAt + 10 * us ≤ max s.now t → completes (.linkSilence t ip) s (fun u =>
      (u.portAt ip.val).link.silent = true ∧ (s.armed (srcPath n 4) = true → s.raisedIn (srcPath n 4) u))) ∧
  (∀ t ip n m s, s.still = false → s.linkPath ip.val = some n → (s.portAt ip.val).spare = [m] → m.late = false →
    m.since + 10 * us ≤ max s.now t → completes (.spareTimeout t ip) s (fun u =>
      (∀ x ∈ (u.portAt ip.val).spare, x.late = true) ∧ (s.armed (srcPath n 4) = true → s.raisedIn (srcPath n 4) u))) ∧
  (∀ t ip n m s, s.still = false → s.linkPath ip.val = some n → (s.portAt ip.val).spare = [] →
    (s.portAt ip.val).spareAns = [m] → m.late = false → m.since + 10 * us ≤ m.repeated →
    completes (.spareTimeout t ip) s (fun u =>
      (∀ x ∈ (u.portAt ip.val).spareAns, x.late = true) ∧ (s.armed (srcPath n 4) = true → s.raisedIn (srcPath n 4) u))) ∧
  (∀ t ip s, s.still = false → completes (.ctrlRepeat t ip) s (fun u =>
    (∀ m ∈ (s.portAt ip.val).spare, m.sentAt + 100 * ns ≤ max s.now t →
      { m with due := 0x3FFFF, sentAt := max s.now t } ∈ (u.portAt ip.val).spare) ∧
    ((s.portAt ip.val).link.tunMsg ≠ none → (s.portAt ip.val).link.tunAt + us ≤ max s.now t →
      (u.portAt ip.val).link.tunDue = 0x3FFFF ∧ (u.portAt ip.val).link.tunAt = max s.now t) ∧
    (∀ m ∈ (s.portAt ip.val).lad.sends, (s.portAt ip.val).lad.sentAt + us ≤ max s.now t →
      (u.portAt ip.val).lad.sendDue.get 0 m.1 = 0x3FFFF)))

/-- LANE_DROP and ROUTE_TAG_MISMATCH complete (R165, R166, R173, R174, R216, R217). A position of the active set leaves it with its LANE
entry and a DROP message waits for its answer; a tag that one of an output's two comparators does not match raises route_tag of the
path expected there.
DRAIN_END and PHASE_2_START complete (R105, R176, R177, R178, R179, R407). A drained path goes dark and its tunnel stops; at a beat edge
in LOCKED after the dark time phase 2 makes a path Moored and STEADY, sends its fill pattern in Survey, trains both sides in Pass,
and in the Guard family starts the tunnel of a standing link or the ladder of one that is not. -/
def Obligations.DropsAndPhasesComplete : Prop :=
  (∀ t ip pos lost ber short cause s, s.still = false → (s.portAt ip.val).up = true → hasPos (s.portAt ip.val).active pos.val = true →
    dropCode (lost && !(s.laneAt (s.ipLane ip.val pos.val)).eligible) ber short = some cause → s.room 1 = true →
    completes (.laneDrop t ip pos lost ber short) s (fun u =>
      hasPos (u.portAt ip.val).active pos.val = false ∧ hasPos (u.portAt ip.val).dropped pos.val = true ∧
      (∃ m, (u.portAt ip.val).spare = (s.portAt ip.val).spare ++ [m] ∧ m.op = 1 ∧ m.out = pos.val ∧ m.cause = cause ∧
        m.since = max s.now t) ∧
      u.logged 0x0C .hardware (s.ipLane ip.val pos.val + 256 * ip.val) 1 (s.nextSpare ip.val pos.val))) ∧
  (∀ point rec copy n want s, s.still = false → s.tagExpected point = some (n, want) →
    (tagMatches want rec = false ∨ tagMatches want copy = false) → s.armed (srcPath n 0) = true →
    completes (.routeTagMismatch point ⟨rec, copy⟩) s (fun u => s.raisedIn (srcPath n 0) u)) ∧
  (∀ t p s, s.still = false → (s.pathAt p.val).phase = .drain → (s.pathAt p.val).safe = false → (s.at t).drained p.val = true →
    completes (.drainEnd t p) s (fun u => (u.pathAt p.val).phase = .dark ∧ (u.pathAt p.val).mode = (s.pathAt p.val).mode)) ∧
  (∀ t p tr s, s.still = false → s.pathEn p.val = true → s.pathLead p.val = p.val → (s.pathAt p.val).phase = .dark →
    (s.pathAt p.val).trans = some tr → (s.pathAt p.val).safe = false → s.beat.st = .locked → max s.now t = s.beat.edge →
    tr.fireAt < s.beat.edge → (∀ d, tr.darkAt = some d → d + us * s.darkMin p.val ≤ s.beat.edge) → s.pwr.fatal = false →
    completes (.phase2Start t p) s (fun u => (u.pathAt p.val).trans = none ∧
      (u.pathAt p.val).phase = (match (s.pathAt p.val).mode with
        | .moored | .survey => .steady
        | .pass => .train
        | .drive | .fanOut => if (s.portAt (s.pathI p.val)).up then .steady else .ladder
        | .guard | .observe | .verdict => if (s.portAt (s.pathI p.val)).up then .train else .ladder) ∧
      ((s.pathAt p.val).mode.family = true → (s.portAt (s.pathI p.val)).up = false →
        (u.portAt (s.pathI p.val)).lad.step = 1)))

/-- PACK_TIMEOUT, D_TO_I_RECEIVE, PLAYOUT_SLOT and SLIP complete (R215, R222, R225, R227, R229). The unsent part of an interval leaves as a
short flit that ends at its offset; bits that do not fill an interval wait; an interval in its cell is played at its slot; one that
is not there slips, and so does one whose flit is not accepted in time. -/
def Obligations.PackingAndPlayoutComplete : Prop :=
  (∀ t p a m s, s.still = false → (s.pathAt p.val).packAt = some a → s.packs p.val = true → a + 8 * ns ≤ max s.now t →
    s.noFlitDue p.val = true → m = min (shortest (s.pathAt p.val).packBits)
      (min (intervalBits (s.dpWidth (s.pathD p.val)) - (s.pathAt p.val).packOff) (2016 / s.dpWidth (s.pathD p.val))) → m ≠ 0 →
    completes (.packTimeout t p) s (fun u =>
      if intervalBits (s.dpWidth (s.pathD p.val)) ≤ (s.pathAt p.val).packOff + m then
        (u.pathAt p.val).packOff = 0 ∧ (u.pathAt p.val).packK = ((s.pathAt p.val).packK + 1) % 2 ^ 32
      else (u.pathAt p.val).packOff = (s.pathAt p.val).packOff + m ∧ (u.pathAt p.val).packK = (s.pathAt p.val).packK)) ∧
  (∀ t p rx all s, s.still = false → s.pathEn p.val = true → (s.pathAt p.val).dataMode = .guard → s.packs p.val = true →
    rx.units = [] → all = appendLanes (s.pathAt p.val).packBits (lineBits p.val rx.bits s).1 →
    shortest all < intervalBits (s.dpWidth (s.pathD p.val)) - (s.pathAt p.val).packOff → s.calm = true →
    completes (.dToIReceive t p rx) s (fun u =>
      (u.pathAt p.val).packBits = all ∧ (u.pathAt p.val).packK = (s.pathAt p.val).packK ∧
      (shortest (s.pathAt p.val).packBits < shortest all →
        (u.pathAt p.val).packAt = (s.pathAt p.val).packAt.or (some (max s.now t))))) ∧
  (∀ t p a c s, s.still = false → s.pathEn p.val = true → s.pathLead p.val = p.val → (s.pathAt p.val).mode.guardFam = true →
    (s.pathAt p.val).safe = false → (s.portAt (s.pathI p.val)).link.tunnel = 1 →
    s.slotTime p.val (s.pathAt p.val).playNext = some a → a ≤ max s.now t →
    (s.portAt (s.pathI p.val)).link.cells.find? (fun c => c.typ = 1 && seqUpTo c.seq (s.portAt (s.pathI p.val)).link.ack &&
      c.interval == (s.pathAt p.val).playNext && decide (c.readyAt + 16 * ns ≤ a)) = some c →
    completes (.playoutSlot t p ⟨false, false, none⟩) s (fun u =>
      (u.pathAt p.val).playNext = ((s.pathAt p.val).playNext + 1) % 2 ^ 32 ∧
      (s.dpFamily (s.pathD p.val) = 0 → (u.pathAt p.val).played = some ((s.pathAt p.val).playNext, c.payload)))) ∧
  (∀ t p r a s, s.still = false → s.pathEn p.val = true → s.pathLead p.val = p.val → (s.pathAt p.val).mode.guardFam = true →
    (s.pathAt p.val).safe = false → (s.portAt (s.pathI p.val)).link.tunnel = 1 →
    s.slotTime p.val (s.pathAt p.val).playNext = some a → a ≤ max s.now t → (s.portAt (s.pathI p.val)).link.cells = [] →
    s.armed (srcPath p.val 1) = true → completes (.playoutSlot t p r) s (fun u => s.raisedIn (srcPath p.val 1) u)) ∧
  (∀ t p a s, s.still = false → s.pathEn p.val = true → (s.pathAt p.val).safe = false →
    (s.portAt (s.pathI p.val)).link.tunnel = 1 → s.slotTime p.val (s.portAt (s.pathI p.val)).link.rxCount = some a →
    a ≤ max s.now t + 16 * ns →
    s.armed (srcPath p.val 1) = true → completes (.slip t p) s (fun u => s.raisedIn (srcPath p.val 1) u))

/-! ### The Spool, HBM and the journal (07) -/

/-- SEAL_TIMEOUT, ROW_TIMEOUT and SERVICE_SLOT complete (R246, R253, R255, R256, R257, R262, R287, R291): seal_us after it began the record
in progress takes the next sequence number; 1 µs after its first record a row is filled up with PAD records. A slot of the service
frame serves once in it: a path's slot writes the first row of its D→I captures that is whole; a drain or preload slot takes the
next of the 256 turns; a rebuild slot with nothing else to do scrubs the next row when it is due.
HBM_ERROR_WINDOW, SELF_REFRESH_FAIL, HBM_TEMP_HIGH and its end, and HBM_CONTROLLER_ECC complete (R289, R292, R294): a window's
counts start again and too many corrected words raise hbm_corrected; a failed self-refresh loses every channel; the temperature
reported is kept, and the others raise their sources of the stack. -/
def Obligations.RowsAndHbmComplete : Prop :=
  (∀ t k r s, s.still = false → k.val ≠ 1022 → s.stRole k.val ≠ 1 → (s.strmAt k.val).cur = some r →
    (s.strmAt k.val).evRec = none → r.begun + us * s.stSeal k.val ≤ max s.now t → (s.strmAt k.val).limit = 0 →
    (s.strmAt k.val).post = none → completes (.sealTimeout t k) s (fun u =>
      (u.strmAt k.val).next = (s.strmAt k.val).next + 1 ∧
      (s.calm = true → (u.strmAt k.val).cur = none ∧ (u.strmAt k.val).staged.length = (s.strmAt k.val).staged.length + 1))) ∧
  (∀ t k r s, s.still = false → s.calm = true →
    ((s.strmAt k.val).staged.drop ((s.strmAt k.val).staged.length / 3 * 3)).head? = some r → r.sealedAt + us ≤ max s.now t →
    completes (.rowTimeout t k) s (fun u =>
    (u.strmAt k.val).staged.length % 3 = 0 ∧
    (u.strmAt k.val).staged.take (s.strmAt k.val).staged.length = (s.strmAt k.val).staged)) ∧
  (∀ t i r n k s, s.still = false → s.pwr.fatalDone = false → s.slotFree t i.val = true → s.slotUse i.val = .path n →
    ((s.roleOf n 0).filter (fun k => s.stDir k == 1)).find? s.rowReady = some k →
    (∀ r ∈ (s.strmAt k).staged, r.com = true) → completes (.serviceSlot t ⟨i, r⟩) s (fun u =>
      u.slotFree t i.val = false ∧ (u.strmAt k).rowNext = (s.strmAt k).rowNext + 1 ∧
      (u.strmAt k).written = (s.strmAt k).written ++
        ((s.strmAt k).staged.take 3).map (fun r => { r with row := (s.strmAt k).rowNext }) ∧
      (s.calm = true → (u.strmAt k).staged = (s.strmAt k).staged.drop 3))) ∧
  (∀ t i r s, s.still = false → s.pwr.fatalDone = false → s.slotFree t i.val = true →
    completes (.serviceSlot t ⟨i, r⟩) s (fun u => u.slotFree t i.val = false ∧
      u.sto.turn = (if s.slotUse i.val = .drain then (s.sto.turn + 1) % 256 else s.sto.turn) ∧
      u.sto.turnRead = (if s.slotUse i.val = .preload then (s.sto.turnRead + 1) % 256 else s.sto.turnRead))) ∧
  (∀ t i r s, s.still = false → s.pwr.fatalDone = false → s.slotFree t i.val = true → s.slotUse i.val = .rebuild →
    s.spl.assist = 0 → (∀ h : Fin 4, (s.hbmAt h.val).rebuild = none) → s.env.rkState ≠ 1 → (s.at t).scrubDue = true →
    completes (.serviceSlot t ⟨i, r⟩) s (fun u => u.spl.scrub = (s.spl.scrub % stripedRows + 1) % stripedRows)) ∧
  (∀ h n s, s.still = false → completes (.hbmErrorWindow h n) s (fun u => (u.hbmAt h.val).corrected = 0 ∧
    (s.bits (aHbc h.val) 31 16 < (s.hbmAt h.val).corrected → s.armed (srcHbm h.val 0) = true → s.raisedIn (srcHbm h.val 0) u))) ∧
  (∀ h s, s.pwr.por = false → completes (.selfRefreshFail h) s (fun u =>
    (u.hbmAt h.val).lostAll = true ∧ (u.hbmAt h.val).unmapped = 0x3FFFFFFF ∧ (u.hbmAt h.val).rebuild = none ∧
    (s.armed (srcHbm h.val 10) = true → s.raisedIn (srcHbm h.val 10) u))) ∧
  (∀ h c s, s.still = false → completes (.hbmTempHigh h c) s (fun u => (u.hbmAt h.val).celsius = c ∧
    (95 < c → s.armed (srcHbm h.val 9) = true → s.raisedIn (srcHbm h.val 9) u))) ∧
  (∀ h c s, s.still = false → completes (.hbmTempHighEnd h c) s (fun u => (u.hbmAt h.val).celsius = c ∧
    (c ≤ 95 → (u.srcAt (srcHbm h.val 9)).cond = false ∧ (u.srcAt (srcHbm h.val 9)).st ≠ 1))) ∧
  (∀ h s, s.still = false → s.armed (srcHbm h.val 11) = true →
    completes (.hbmControllerEcc h) s (fun u => s.raisedIn (srcHbm h.val 11) u))

/-- JOURNAL_COMMIT, its completion, SNAPSHOT and JOURNAL_STORE complete (R263, R277, R278, R295). A commit, every 2 µs, covers the records written so
far; when a copy of it is written they are accepted, into the window in order; a snapshot, every journal_ms, carries what is
accepted; ten times journal_ms without one raises journal_store.
STORE_FLUSH_TIMEOUT, DRIVE_COMMAND_COMPLETE and DURABLE_LAG complete (R278, R283, R286, R295). flush_us after its
first record a row that is not full is due; the last drive to complete a row makes its records durable; a rebuild's boundary moves
on; with its last drive a snapshot is durable; a record that stays too long raises durable_lag. -/
def Obligations.JournalAndDrainComplete : Prop :=
  (∀ t s, s.still = false → s.spl.committing = false → s.pwr.fatalDone = false → s.spl.commitDue ≤ max s.now t →
    completes (.journalCommit t) s (fun u =>
    u.spl.committing = true ∧ u.spl.commitNo = s.spl.commitNo + 1 ∧ u.spl.commitDue = max s.now t + 2 * us ∧
    ∀ k : StreamNo, (u.strmAt k.val).inCommit = (s.strmAt k.val).written.length)) ∧
  (∀ t a b s, s.still = false → s.spl.committing = true → completes (.journalCommitComplete t a b) s (fun u =>
    u.spl.committing = false ∧ u.spl.copyA.intact = a ∧ u.spl.copyB.intact = b ∧ (a = true → u.spl.copyA.no = s.spl.commitNo) ∧
    (b = true → u.spl.copyB.no = s.spl.commitNo) ∧
    ∀ k : StreamNo, (u.strmAt k.val).inCommit = 0 ∧ (u.strmAt k.val).window = (if (a || b) = true then (s.strmAt k.val).window ++
      ((s.strmAt k.val).written.take (s.strmAt k.val).inCommit).map (fun r => { r with accAt := max s.now t })
      else (s.strmAt k.val).window))) ∧
  (∀ t s, s.still = false → s.spl.snapping = false → s.sto.stopped = false →
    s.spl.snapFrom + ms * s.bits 0x700000 25 16 ≤ max s.now t → completes (.snapshot t) s (fun u =>
    u.spl.snapping = true ∧ u.spl.snapNo = s.spl.snapNo + 1 ∧
    ∀ k : StreamNo, (u.strmAt k.val).snapNew = (s.strmAt k.val).accepted)) ∧
  (∀ t s, s.still = false → s.spl.snapAt + 10 * ms * s.bits 0x700000 25 16 ≤ max s.now t → s.armed (srcStore 95) = true →
    completes (.journalStore t) s (fun u => s.raisedIn (srcStore 95) u)) ∧
  (∀ t k r s, s.still = false → (s.strmAt k.val).toDrain.head? = some r → r.accAt + us * s.bits 0x700004 15 0 ≤ max s.now t →
    completes (.storeFlushTimeout t k) s (fun u => (u.strmAt k.val).flushDue = true)) ∧
  (∀ d k r s, s.still = false → s.sto.stopped = false → (s.strmAt k.val).drainOn = BitVec.ofNat 16 (2 ^ d.val) →
    ((s.strmAt k.val).toDrain.take (s.strmAt k.val).draining).getLast? = some r →
    completes (.driveCommandComplete d (.rowWrite k)) s (fun u =>
      (u.strmAt k.val).durable = r.seq ∧ (u.strmAt k.val).drainOn = 0)) ∧
  (∀ d k s, s.still = false → s.sto.stopped = false → (s.strmAt k.val).drainOn.getLsbD d.val = true →
    (s.strmAt k.val).drainOn ≠ BitVec.ofNat 16 (2 ^ d.val) →
    completes (.driveCommandComplete d (.rowWrite k)) s (fun u => (u.strmAt k.val).durable = (s.strmAt k.val).durable ∧
      (u.strmAt k.val).drainOn = (s.strmAt k.val).drainOn &&& ~~~BitVec.ofNat 16 (2 ^ d.val))) ∧
  (∀ d row s, s.still = false → s.sto.stopped = false → (s.driveAt d.val).st = 3 → (s.driveAt d.val).boundary = row →
    completes (.driveCommandComplete d (.rebuildRow row)) s (fun u => (u.driveAt d.val).boundary = row + 1)) ∧
  (∀ d s, s.still = false → s.sto.stopped = false → s.spl.snapping = true → s.spl.snapOn = BitVec.ofNat 16 (2 ^ d.val) →
    completes (.driveCommandComplete d .snapshot) s (fun u => u.spl.snapAt = s.now ∧ u.spl.snapping = false)) ∧
  (∀ k s, s.still = false → s.lags k.val = true → s.armed (srcStore 94) = true →
    completes (.durableLag k) s (fun u => s.raisedIn (srcStore 94) u))

/-- DRIVE_CMD_TIMEOUT, DRIVE_REMOVED, DRIVE_INSERTED, SMART_POLL, STORE_PORT_EVENT and STORE_LINK_UP complete (R281, R282, R285, R286, R295).
A member whose command is late, that is removed or warns is missing and raises its source; a usable drive joins before the group exists; a
port's link status follows, and the drives of a port that goes down are missing. -/
def Obligations.DrivesComplete : Prop :=
  (∀ t d s, s.still = false → (s.driveAt d.val).st = 1 → (s.at t).cmdLate d.val = true →
    completes (.driveCmdTimeout ⟨t, d⟩) s (fun u => (u.driveAt d.val).st = 2 ∧
      (s.armed (srcStore (74 + d.val)) = true → s.raisedIn (srcStore (74 + d.val)) u))) ∧
  (∀ d s, s.still = false → (s.driveAt d.val).st = 1 →
    completes (.driveRemoved d) s (fun u => (u.driveAt d.val).st = 2 ∧
      (s.armed (srcStore (74 + d.val)) = true → s.raisedIn (srcStore (74 + d.val)) u)) ∧
    (s.gon.fwReady = true → completes (.smartPoll d true) s (fun u => (u.driveAt d.val).st = 2))) ∧
  (∀ i s, s.still = false → (s.driveAt i.drive.val).st = 0 → s.sto.group = 0 → i.usable = true →
    completes (.driveInserted i) s (fun u => (u.driveAt i.drive.val).st = 1 ∧ (u.driveAt i.drive.val).port = i.port.val ∧
      (u.driveAt i.drive.val).capacity = i.capacity)) ∧
  (∀ p s, s.still = false → completes (.storePortEvent p .linkDown) s (fun u =>
    u.sto.up = s.sto.up &&& ~~~BitVec.ofNat 2 (2 ^ p.val) ∧
    ∀ d : Fin 16, (s.driveAt d.val).port = p.val → (s.driveAt d.val).st = 1 → (u.driveAt d.val).st = 2)) ∧
  (∀ p s, s.still = false → s.armed (srcStore (69 + 3 * p.val)) = true →
    completes (.storePortEvent p .linkDegraded) s (fun u => s.raisedIn (srcStore (69 + 3 * p.val)) u)) ∧
  (∀ p ds s, s.still = false → completes (.storeLinkUp p ds) s (fun u =>
    u.sto.up = s.sto.up ||| BitVec.ofNat 2 (2 ^ p.val) ∧ (u.srcAt (srcStore (68 + 3 * p.val))).cond = false))

/-- PRELOAD, SPL_RELEASE and STORE_RELEASE complete (R271, R273, R284, R414, R549), each with its REG_WRITE entry: a preload of a loaded
stream begins; a release moves the released number on; a store release up to the last durable record frees all of the extent that
is written. -/
def Obligations.SpoolCommandsComplete : Prop :=
  (∀ o k q n s, s.unclocked = false → s.fatalRefuses o = false → s.room 1 = true → s.spl.cmdBusy = false →
    s.stEn k.val = true → 2 ≤ s.stRole k.val → s.stRole k.val ≤ 4 → n ≠ 0 → completes (.preload o k q n) s (fun u =>
      u.spl.preload = some (k.val, q, n) ∧ u.spl.cmdBusy = true ∧ u.logged 0x01 o 0x500000 (splWord 1 k.val) 0)) ∧
  (∀ o k q s, s.unclocked = false → s.fatalRefuses o = false → s.room 1 = true → s.spl.cmdBusy = false →
    s.stEn k.val = true → 2 ≤ s.stRole k.val → s.stRole k.val ≤ 4 → completes (.splRelease o k q) s (fun u =>
      (u.strmAt k.val).released = max (s.strmAt k.val).released q ∧ u.spl.cmdResult = 0 ∧
      u.logged 0x01 o 0x500000 (splWord 2 k.val) 0)) ∧
  (∀ o k q s, s.unclocked = false → s.fatalRefuses o = false → s.room 1 = true → s.spl.cmdBusy = false →
    s.stEn k.val = true → s.stDrain k.val = true → (s.strmAt k.val).durable ≤ q → completes (.storeRelease o k q) s (fun u =>
      (u.strmAt k.val).storeRel = max (s.strmAt k.val).storeRel (s.strmAt k.val).storeIdx ∧ u.spl.cmdResult = 0 ∧
      u.logged 0x01 o 0x500000 (splWord 3 k.val) 0))

/-! ### Verdicts and the train (08, 09) -/

/-- VERDICT_FORMED and VERDICT_ECC_ERROR complete (R300, R317, R325): 200 ns after its close a bank's verdict is formed, and it is the newest;
an error of the pair's memories raises pair_check, and a bank that is forming takes "pair integrity". -/
def Obligations.VerdictsComplete : Prop :=
  (∀ t p c s, s.still = false → (s.ctxAt p.val c.val).forming = 1 → (s.ctxAt p.val c.val).waiting = none →
    (s.ctxAt p.val c.val).closedAt.1 + 200 * ns ≤ max s.now t → completes (.verdictFormed t p c) s (fun u =>
      (u.ctxAt p.val c.val).forming = 0 ∧ (u.ctxAt p.val c.val).newest = some 0 ∧
      (u.ctxAt p.val c.val).bank0 = { (s.ctxAt p.val c.val).bank0 with verdict := (s.ctxAt p.val c.val).bank0.verdictOf } ∧
      (u.ctxAt p.val c.val).isOpen = (s.ctxAt p.val c.val).isOpen)) ∧
  (∀ p s, s.still = false → completes (.verdictEccError p) s (fun u =>
    (∀ c : Fin 4, (s.ctxAt p.val c.val).forming.getLsbD 0 = true →
      (u.ctxAt p.val c.val).bank0.causes = (s.ctxAt p.val c.val).bank0.causes ||| 0x80) ∧
    (s.armed (srcPath p.val 3) = true → s.raisedIn (srcPath p.val 3) u)))

/-- TRAIN_SLOT, TRAIN_ROUND_START, TRAIN_SLOT_SEND, MASTER_SILENT and PEER_ABSENT complete (R333, R335, R337, R338, R340, R345, R348). A slot
that is not valid is counted; a valid one shows its member present, and the master's is the reference of a member; the master
starts rounds; the own slot is sent once a round; 1,026 µs without the master a member coasts; a member unheard for four rounds is
not present, and absent if it is expected. -/
def Obligations.TrainCompletes : Prop :=
  (∀ t rx s, s.trainOn = true → validSlot rx = none → completes (.trainSlot t rx) s (fun u =>
    u.trn.slotErr = satAdd 65535 s.trn.slotErr 1 ∧ u.trn.peer = s.trn.peer ∧ u.trn.polarity = s.trn.polarity)) ∧
  (∀ t rx inv pl s, s.trainOn = true → validSlot rx = some (inv, pl) → rx.arrival.val ≠ s.trainId →
    completes (.trainSlot t rx) s (fun u =>
    u.trn.polarity = some inv ∧ (u.peerAt rx.arrival.val).present = true ∧ (u.peerAt rx.arrival.val).heard = true ∧
    (u.peerAt rx.arrival.val).since = 0 ∧ (u.peerAt rx.arrival.val).absent = false ∧
    (rx.arrival.val = 0 → u.trn.masterRef = some t ∧ u.trn.heardMaster = true ∧ u.trn.coasting = false))) ∧
  (∀ t s, s.trainOn = true → s.trainId = 0 → (s.trn.masterRef = none ∨ s.trn.roundAt + 255975 * ns ≤ max s.now t) →
    completes (.trainRoundStart t) s (fun u =>
    u.trn.masterRef = some (max s.now t) ∧ u.trn.sent = false ∧
    u.trn.round = (if s.trn.masterRef = none then 0 else (s.trn.round + 1) % 256))) ∧
  (∀ t r s, (s.at t).mayPublish = true → completes (.trainSlotSend t r) s (fun u =>
    u.trn.sent = true ∧ u.trn.lastSent = some (slotCells (s.at t).slotPayload) ∧ u.trn.heartbeat = s.trn.heartbeat + 1)) ∧
  (∀ t r s, s.trainOn = true → s.trainId ≠ 0 → s.trn.heardMaster = true → s.trn.coasting = false → s.trn.masterRef = some r →
    r + 1026 * us ≤ max s.now t → completes (.masterSilent t) s (fun u =>
      u.trn.masterSilent = true ∧ u.trn.coasting = true)) ∧
  (∀ id s, s.trainOn = true → id.val ≠ s.trainId → 4 ≤ (s.peerAt id.val).since → (s.peerAt id.val).absent = false →
    completes (.peerAbsent id) s (fun u => (u.peerAt id.val).present = false ∧
      (u.peerAt id.val).absent = (if id.val < 32 then s.bit 0x40008 id.val else s.bit 0x4000C (id.val - 32))))

/-! ### Faults, the device's own checks, and Fatal (09, 12, 14) -/

/-- GRACE_EXPIRY, SAFE_STATE_EXIT, FATAL_FLUSH_END, FATAL_PORT_TIMEOUT, FAULT_ACK, FAULT_RECORD_POP, REFCLK_LOSS and CORE_CLOCK
complete (R359, R360, R364, R366, R371, R373). An expired grace timer raises the class in force by one and stops; a path with no
holding cause left leaves its safe state and trains again; the Fatal flush stops the store host and clears every key slot, and 1 ms
later every lane enters Moored; an acknowledgement returns a LATCHED source to IDLE and holds an ACTIVE one, with its FAULT_ACK
entry; a pop takes the oldest record; a lost clock is recorded in the reset cause. -/
def Obligations.FaultsComplete : Prop :=
  (∀ t (src : Fin 2176) s g, s.still = false → src.val ≠ srcGlobal 57 → src.val ≠ srcGlobal 70 → src.val ≠ srcGlobal 72 →
    src.val ≠ srcGlobal 78 → (s.srcAt src.val).grace = some g → g ≤ max s.now t →
    completes (.graceExpiry t src) s (fun u =>
      (u.srcAt src.val).cls = min 3 ((s.srcAt src.val).cls + 1) ∧ (u.srcAt src.val).grace = none ∧
      (u.srcAt src.val).st = (s.srcAt src.val).st)) ∧
  (∀ t p s, s.still = false → (s.pathAt p.val).safe = true → (s.pathAt p.val).holds = [] → s.pwr.fatal = false →
    s.room 1 = true → completes (.safeStateExit t p) s (fun u =>
      u.logged 0x09 .hardware p.val ((s.pathAt p.val).mode.code + 16 * (s.pathAt p.val).phase.code) 3)) ∧
  (∀ t p s, s.still = false → s.calm = true → (s.pathAt p.val).safe = true → (s.pathAt p.val).holds = [] → s.pwr.fatal = false →
    (s.pathAt p.val).mode = .pass → s.pathEn p.val = true → (s.pathAt p.val).pendMode = none →
    (s.pathAt p.val).pendRetrain = none →
    (s.pathAt p.val).trans = none → completes (.safeStateExit t p) s (fun u =>
      (u.pathAt p.val).safe = false ∧ (u.pathAt p.val).phase = .train)) ∧
  (∀ t s, s.still = false → s.pwr.fatal = true → s.pwr.fatalDone = false → completes (.fatalFlushEnd t) s (fun u =>
    u.pwr.fatalDone = true ∧ u.sto.stopped = true ∧ u.env.cleared = true ∧ ∀ o : Fin 16, u.env.slot.get none o.val = none)) ∧
  (∀ t s, s.still = false → s.pwr.fatalDone = true → s.pwr.fatalPorts = false →
    s.pwr.flushAt + ms ≤ max s.now t → completes (.fatalPortTimeout t) s (fun u =>
    u.pwr.fatalPorts = true ∧
    ∀ l : Fin 128, (s.laneAt l.val).st ≠ .unassigned → (u.laneAt l.val).st = .moored)) ∧
  (∀ o v s, s.writable o 0x20800 v.toNat = true → s.room 2 = true → s.pwr.fatal = false → v.toNat ≠ srcGlobal 57 →
    v.toNat ≠ srcGlobal 70 → v.toNat ≠ srcGlobal 72 → v.toNat ≠ srcGlobal 78 → (s.srcAt v.toNat).raisedAt ≠ some s.now →
    completes (.faultAck o v) s (fun u =>
      u.logged 0x0B o v.toNat (s.srcAt v.toNat).st 0 ∧
      ((s.srcAt v.toNat).st = 2 → (u.srcAt v.toNat).st = 0 ∧ (u.srcAt v.toNat).cls = 0 ∧ (u.srcAt v.toNat).grace = none) ∧
      ((s.srcAt v.toNat).st = 1 → (u.srcAt v.toNat).st = 3 ∧ (u.srcAt v.toNat).grace = none))) ∧
  (∀ o v s, s.writable o 0x20840 v.toNat = true → v.toNat % 2 = 1 → completes (.faultRecordPop o v) s (fun u =>
    ∃ l, u.flt.recs = s.flt.recs.drop 1 ++ l)) ∧
  (∀ t s, s.pwr.por = false → s.pwr.clkLost = false → s.armed (srcGlobal 32) = true → completes (.refclkLoss t) s (fun u =>
    u.pwr.clkLost = true ∧ s.raisedIn (srcGlobal 32) u ∧ u.flt.resetCause.toNat / 2 ^ 95 = 1)) ∧
  (∀ t s, s.pwr.por = false → s.pwr.clkLost = false → s.armed (srcGlobal 33) = true → completes (.coreClock t) s (fun u =>
    u.pwr.clkLost = true ∧ s.raisedIn (srcGlobal 33) u ∧ u.flt.resetCause.toNat / 2 ^ 95 = 1))

/-- D2D_CORRECTED, D2D_UNCORRECTED, D2D_LINK_LOSS, DATAPATH_CONFIG_ECC, DATAPATH_PARITY, SPOOL_ECC, LOG_ECC, RIPCORD_ECC,
RIPCORD_MISMATCH, CLASS_COPY_COMPARE, RIPCORD_SELFTEST, ENV_INTEGRITY, PIN_READBACK, BEAT_LINE, TRAIN_LINE and LINE_BACK_IN_RANGE
complete (R12, R354, R357, R368, R376, R377, R472, R475): each raises its source, keeps its count or state, and a line back in
range ends its condition. -/
def Obligations.OwnChecksComplete : Prop :=
  (∀ d s, s.still = false → completes (.d2dCorrected d) s (fun u =>
    (u.dieAt d.val).corrected = satAdd 255 (s.dieAt d.val).corrected 1 ∧
    (s.armed (srcGlobal (19 + d.val)) = true → s.raisedIn (srcGlobal (19 + d.val)) u))) ∧
  (∀ d ps s, s.still = false → s.armed (srcGlobal (23 + d.val)) = true →
    completes (.d2dUncorrected d ps) s (s.raisedIn (srcGlobal (23 + d.val)))) ∧
  (∀ d s, s.still = false → completes (.d2dLinkLoss d) s (fun u =>
    (u.dieAt d.val).link = 3 ∧ (s.armed (srcGlobal (27 + d.val)) = true → s.raisedIn (srcGlobal (27 + d.val)) u))) ∧
  (∀ ps s, s.still = false → s.armed (srcGlobal 66) = true → completes (.datapathConfigEcc ps) s (s.raisedIn (srcGlobal 66))) ∧
  (∀ r s, s.still = false → s.armed (srcGlobal 67) = true → completes (.datapathParity r) s (s.raisedIn (srcGlobal 67))) ∧
  (∀ s, s.still = false → s.armed (srcGlobal 68) = true → completes .spoolEcc s (s.raisedIn (srcGlobal 68))) ∧
  (∀ s, s.still = false → s.armed (srcGlobal 69) = true → completes .logEcc s (s.raisedIn (srcGlobal 69))) ∧
  (∀ s, s.still = false → s.armed (srcGlobal 80) = true → completes .ripcordEcc s (fun u =>
    s.raisedIn (srcGlobal 80) u ∧ u.pwr.fatal = true)) ∧
  (∀ s, s.still = false → s.armed (srcGlobal 79) = true → completes .ripcordMismatch s (fun u =>
    s.raisedIn (srcGlobal 79) u ∧ u.pwr.fatal = true)) ∧
  (∀ s, s.still = false → s.armed (srcGlobal 79) = true → completes (.classCopyCompare false) s (fun u =>
    s.raisedIn (srcGlobal 79) u ∧ u.pwr.fatal = true)) ∧
  (∀ s, completes (.classCopyCompare true) s (fun u => u.srcAt (srcGlobal 79) = s.srcAt (srcGlobal 79))) ∧
  (∀ s, s.still = false → s.armed (srcGlobal 81) = true → completes (.ripcordSelftest false) s (fun u =>
    s.raisedIn (srcGlobal 81) u ∧ u.pwr.fatal = true)) ∧
  (∀ s, completes (.ripcordSelftest true) s (fun u => u.srcAt (srcGlobal 81) = s.srcAt (srcGlobal 81))) ∧
  (∀ rights ks ecc i s, s.still = false → (rights || ks || ecc) = true → completes (.envIntegrity rights ks ecc i) s (fun u =>
    (rights = true → u.env.memRefused = true) ∧ (ks = true → (s.keyAt i.val).loaded = true → (u.keyAt i.val).bad = true) ∧
    (ecc = true → u.env.slotBad.getLsbD (i.val % 16) = true) ∧
    (s.armed (srcGlobal 50) = true → s.raisedIn (srcGlobal 50) u))) ∧
  (∀ s, s.still = false → s.flt.faultN = true → (s.srcAt (srcGlobal 75)).under = 0 → s.armed (srcGlobal 75) = true →
    completes (.pinReadback .faultN) s (fun u =>
      s.raisedIn (srcGlobal 75) u ∧ (u.srcAt (srcGlobal 75)).under.getLsbD 0 = true)) ∧
  (∀ s, s.still = false → s.flt.alertN = true → (s.srcAt (srcGlobal 75)).under = 0 → s.armed (srcGlobal 75) = true →
    completes (.pinReadback .alertN) s (fun u =>
      s.raisedIn (srcGlobal 75) u ∧ (u.srcAt (srcGlobal 75)).under.getLsbD 1 = true)) ∧
  (∀ s, s.still = false → s.armed (srcGlobal 76) = true → completes .beatLine s (s.raisedIn (srcGlobal 76))) ∧
  (∀ s, s.still = false → s.armed (srcGlobal 77) = true → completes .trainLine s (s.raisedIn (srcGlobal 77))) ∧
  (∀ s, s.still = false → completes (.lineBackInRange .beat) s (fun u => (u.srcAt (srcGlobal 76)).cond = false)) ∧
  (∀ s, s.still = false → completes (.lineBackInRange .train) s (fun u => (u.srcAt (srcGlobal 77)).cond = false)) ∧
  (∀ s, s.still = false → completes (.lineBackInRange .faultN) s (fun u =>
    (u.srcAt (srcGlobal 75)).under.getLsbD 0 = false)) ∧
  (∀ s, s.still = false → completes (.lineBackInRange .alertN) s (fun u =>
    (u.srcAt (srcGlobal 75)).under.getLsbD 1 = false))

/-- TEMP_SAMPLE, SUPPLY_LOW, SUPPLY_LOW_END, SUPPLY_HIGH and AVS_LOOP complete (R354, R357, R371, R444, R445, R447, R566). A sensor's
reading is stored; a supply below its minimum is noted and the first raises its source; a supply above its maximum puts every
data transmitter into high impedance; the AVS loop steps the voltage 5 mV up below the low target, 5 mV down above the high one,
within its bounds, and counts a failed transaction. -/
def Obligations.SuppliesComplete : Prop :=
  (∀ t rs s, s.still = false → completes (.tempSample t rs) s (fun u =>
    ∀ (i : Nat) (v : Int), i < 16 → rs[i]? = some (some v) → u.pwr.temp.get 0 i = v)) ∧
  (∀ k v s, s.pwr.por = false → s.supplyIsLow k.val v = true → completes (.supplyLow k v) s (fun u =>
    u.pwr.low.getLsbD k.val = true ∧ (s.pwr.low = 0 → s.armed (srcGlobal 41) = true → s.raisedIn (srcGlobal 41) u))) ∧
  (∀ k s, s.pwr.por = false → completes (.supplyLowEnd k) s (fun u =>
    u.pwr.low.getLsbD k.val = false ∧ (u.pwr.low = 0 → s.pwr.low ≠ 0 → (u.srcAt (srcGlobal 41)).cond = false))) ∧
  (∀ k v s, s.pwr.por = false → s.supplyIsHigh k.val v = true → completes (.supplyHigh k v) s (fun u =>
    (∀ l : Fin 128, (u.laneAt l.val).txHiZ = true) ∧ (s.armed (srcGlobal 42) = true → s.raisedIn (srcGlobal 42) u ∧
    u.pwr.fatal = true))) ∧
  (∀ (m lo hi : Int) v s, s.still = false → s.pwr.avsRun = true → s.pwr.fatal = false → s.bit 0x50010 0 = true →
    completes (.avsLoop (some m) lo hi v) s (fun u =>
      u.pwr.avsCmd = min s.avsBounds.2 (max s.avsBounds.1
        (if m < lo then s.avsNow + 5 else if hi < m then s.avsNow - 5 else s.avsNow)) ∧
      u.pwr.avsRead = v ∧ u.pwr.avsFail = 0)) ∧
  (∀ (lo hi : Int) v s, s.still = false → s.pwr.avsRun = true → s.pwr.fatal = false → s.bit 0x50010 0 = true →
    completes (.avsLoop none lo hi v) s (fun u =>
      u.pwr.avsFail = s.pwr.avsFail + 1 ∧ u.pwr.avsCmd = s.pwr.avsCmd ∧
      (3 ≤ u.pwr.avsFail → u.pwr.avsRun = false ∧ (s.armed (srcGlobal 39) = true → s.raisedIn (srcGlobal 39) u))))

/-- CLOCK_SWITCH_REQUEST, MUX_HANG, DOMAIN_RESET_RELEASE, RESET_DEVICE, RESET_GONDOLA, RESET_PATH, RESET_DOMAIN, DEVICE_RESET_END and
DBG_RST_N_THRESHOLD complete (R428, R429, R430, R433, R434, R435, R437, R438, R508). A switch between running clocks selects its
input; one not complete after 10 µs resets its domain, for 100 ns; each level of GLB_RESET_CMD resets what it names, and a device
reset lasts 10 µs or while DBG_RST_N is low. -/
def Obligations.ClocksAndResetsComplete : Prop :=
  (∀ o v s d, s.writable o 0x50000 v.toNat = true → d = v.toNat / 2 ^ 8 % 256 → d < 206 → protectedDomain d = false →
    (domInputs d).contains (v.toNat % 4) = true → (s.domAt d).switching = none → (s.domAt d).inReset = false →
    (s.domAt d).edges (s.domAt d).input = true → (s.domAt d).edges (v.toNat % 4) = true →
    completes (.clockSwitchRequest o v) s (fun u => u.gon.muxResult = 0 ∧ (u.domAt d).input = v.toNat % 4)) ∧
  (∀ t d s, s.still = false → (s.domAt d.val).switching ≠ none → (s.domAt d.val).inReset = false →
    (s.domAt d.val).since + 10 * us ≤ max s.now t → completes (.muxHang t d) s (fun u =>
      (u.domAt d.val).inReset = true ∧ (u.domAt d.val).since = max s.now t ∧
      (s.armed (srcGlobal 34) = true → s.raisedIn (srcGlobal 34) u))) ∧
  (∀ t d s, s.still = false → (s.domAt d.val).inReset = true → (s.domAt d.val).since + 100 * ns ≤ max s.now t →
    completes (.domainResetRelease t d) s (fun u =>
      (u.domAt d.val).inReset = false ∧ u.flt.domReset.getLsbD d.val = false)) ∧
  (∀ t o v s k, k = v.toNat / 2 ^ 19 * 2 ^ 19 + 1 * 2 ^ 16 + v.toNat % 2 ^ 16 → s.writable o 0x60 k = true → s.room 2 = true →
    s.resetResult k = 0 → s.pwr.dev = false → completes (.resetDevice t o v) s (fun u =>
      u.pwr.dev = true ∧ u.pwr.devByPin = false ∧ u.pwr.devSince = max s.now t ∧ u.gon.rstResult = 0 ∧ u.env.cleared = true)) ∧
  (∀ t o v s k, k = v.toNat / 2 ^ 19 * 2 ^ 19 + 2 * 2 ^ 16 + v.toNat % 2 ^ 16 → s.writable o 0x60 k = true → s.room 2 = true →
    s.resetResult k = 0 → completes (.resetGondola t o v) s (fun u =>
      u.gon.rstResult = 0 ∧ u.gon.fwReady = false ∧ u.gon.mb = {} ∧ u.gon.lock = {} ∧ u.gon.unit = s.gon.unit ∧
      u.logged 0x19 o 2 (s.resetEntry o 2 0).a 0)) ∧
  (∀ t o v s k, k = v.toNat / 2 ^ 19 * 2 ^ 19 + 3 * 2 ^ 16 + v.toNat % 2 ^ 16 → s.writable o 0x60 k = true → s.room 2 = true →
    s.resetResult k = 0 → s.pathEn (k % 256) = true → completes (.resetPath t o v) s (fun u =>
      u.gon.rstResult = 0 ∧ (u.pathAt (k % 256)).hits = [0, 0, 0, 0] ∧ (u.pathAt (k % 256)).skp = 0)) ∧
  (∀ t o v s k, k = v.toNat / 2 ^ 19 * 2 ^ 19 + 4 * 2 ^ 16 + v.toNat % 2 ^ 16 → s.writable o 0x60 k = true → s.room 2 = true →
    s.resetResult k = 0 → completes (.resetDomain t o v) s (fun u =>
      u.gon.rstResult = 0 ∧ (u.domAt (k % 256)).inReset = true ∧ (u.domAt (k % 256)).since = max s.now t)) ∧
  (∀ t s, s.pwr.dev = true → s.pwr.fatal = false → s.pwr.clkLost = false →
    (s.pwr.devByPin = true ∨ s.pwr.rstLow = true ∨ s.pwr.devSince + 10 * us ≤ max s.now t) →
    completes (.deviceResetEnd t) s (fun u =>
      u.pwr.dev = false ∧ u.pwr.rstLow = false ∧ u.sched = {} ∧ u.stg = {} ∧ u.gon.fwReady = false ∧ u.stepDone 3 = true)) ∧
  (∀ t s, s.pwr.por = false → s.pwr.dev = false → s.pwr.fatal = false → s.pwr.clkLost = false →
    completes (.dbgRstNThreshold t) s (fun u =>
      u.pwr.dev = true ∧ u.pwr.devByPin = true ∧ u.pwr.rstLow = true ∧ u.pwr.devSince = max s.now t))

/-! ### Registers, staging and the image (10, 16) -/

/-- REGISTER_WRITE, WIDE_REGISTER_READ and LOG_READ complete (R400, R416, R491, R526, R527). An accepted direct write of a register that
is no command stores its direct fields, changes no other register and leaves its REG_WRITE entry; one that a rule refuses is
counted and changes no register; a write of a command register is that command. A read of word 0 of a wide register latches its
upper words; LOG_READ_SEQ brings an occupied entry into LOG_READ_DATA. -/
def Obligations.RegisterAccessesComplete : Prop :=
  (∀ o a v s, s.writable o a.toNat v.toNat = true → plainAddr a.toNat = true → completes (.registerWrite o a v) s (fun u =>
    u.reg a.toNat = s.stored a.toNat v.toNat ∧ (∀ b, b ≠ a.toNat → u.reg b = s.reg b) ∧ u.logged 0x01 o a.toNat v.toNat 0)) ∧
  (∀ o a v s, s.unclocked = false → s.fatalRefuses o = false → ¬(o = .debug ∧ a.toNat = 0x60010) → s.room 1 = true →
    s.writeRefused o false a.toNat v.toNat = true → completes (.registerWrite o a v) s (fun u =>
      u.regs = s.regs ∧ u.stg = s.stg ∧ u.sched = s.sched ∧ u.pwr.refused = satAdd 65535 s.pwr.refused 1 ∧
      u.logged 0x01 o a.toNat v.toNat 1)) ∧
  (∀ o v s, exec (.registerWrite o 0x20800 v) s = exec (.faultAck o v) s ∧
    exec (.registerWrite o 0x20840 v) s = exec (.faultRecordPop o v) s ∧
    exec (.registerWrite o 0x30020 v) s = exec (.logRead o v) s ∧
    exec (.registerWrite o 0x50000 v) s = exec (.clockSwitchRequest o v) s ∧
    exec (.registerWrite o 0x70010 v) s = exec (.watchdogRestart o v) s) ∧
  (∀ o a s, s.unclocked = false → words a.toNat 0x70400 16 = false → 1 < (spanAt a.toNat).2 → (regInfo a.toNat).isSome = true →
    (spanAt a.toNat).1 = a.toNat → completes (.wideRegisterRead o a) s (fun u =>
      u.regs.latch.get none a.toNat = some ((List.range ((spanAt a.toNat).2 - 1)).map (fun i => s.word (a.toNat + 4 * (i + 1)))) ∧
      u.regs.file = s.regs.file)) ∧
  (∀ o v s q e, s.writable o 0x30020 v.toNat = true → q = v.toNat + 2 ^ 32 * (s.reg 0x30024).toNat → 0 < q → q ≤ s.log.newest →
    s.log.newest - q < s.log.used → s.log.ring[s.log.newest - q]? = some e → completes (.logRead o v) s (fun u =>
      u.log.readStatus = 2 ∧
      u.log.readData = (List.range 8).map (fun i => BitVec.ofNat 32 (byteWord (entryBytes e) i))))

/-- STAGE_APPEND, STAGE_CLEAR, STAGE_PATH_SWITCH, STAGE_HELD_RELEASE and STAGE_HELD_RETRY complete (R401, R402, R404). A write joins
the end of its set and a clear empties the set, each with its entry; a path's boundary takes the first of what waits for it;
a release and a retry take the held writes whose condition has ended, or whose entry was refused 1 µs ago, and leave every other
held. -/
def Obligations.StagingCompletes : Prop :=
  (∀ o k a v m s, s.unclocked = false → s.fatalRefuses o = false → originStages o = true → debugBarred o a.toNat = false →
    s.appendRefusal k.val a.toNat m.toNat = none → s.room 1 = true → completes (.stageAppend o k a v m) s (fun u =>
      u.stg.sets.get [] k.val = s.stg.sets.get [] k.val ++ [{ addr := a, value := v, mask := m, origin := o }] ∧
      (∀ j, j ≠ k.val → u.stg.sets.get [] j = s.stg.sets.get [] j) ∧ u.regs = s.regs ∧ u.stg.result = 0 ∧
      u.logged 0x02 o a.toNat v.toNat m.toNat)) ∧
  (∀ o k s, s.unclocked = false → s.fatalRefuses o = false → originStages o = true → s.room 1 = true →
    completes (.stageClear o k) s (fun u =>
      u.stg.sets.get [] k.val = [] ∧ (∀ j, j ≠ k.val → u.stg.sets.get [] j = s.stg.sets.get [] j) ∧ u.regs = s.regs ∧
      u.stg.result = 0 ∧ u.logged 0x05 o k.val (s.stg.sets.get [] k.val).length 0)) ∧
  (∀ t p s, s.still = false → completes (.stagePathSwitch t p) s (fun u =>
    u.stg.switch.get [] p.val = (s.stg.switch.get [] p.val).drop 1 ∧ u.stg.sets = s.stg.sets ∧
    (∀ ws, s.stg.switch.get [] p.val = [.writes ws] → u.stg.applying.getLsbD p.val = false) ∧
    (s.stg.switch.get [] p.val = [.mode] → (u.pathAt p.val).runs = none))) ∧
  (∀ t p s, s.still = false → s.room s.stg.held.length = true → completes (.stageHeldRelease t p) s (fun u =>
    u.stg.held = s.stg.held.filter (fun h => !(h.path == p.val && s.holdEnded h)) ∧ u.stg.sets = s.stg.sets)) ∧
  (∀ t s, s.still = false → s.room s.stg.held.length = true → completes (.stageHeldRetry t) s (fun u =>
    u.stg.held = s.stg.held.filter (fun h => !(h.due.any (fun d => decide (d ≤ max s.now t)))) ∧ u.stg.sets = s.stg.sets))

/-- IMAGE_UPDATE_START, IMAGE_DATA and IMAGE_UPDATE_TIMEOUT complete (R397, R398, R496). An update of the inactive chip starts with its
entry; data at the next expected offset move it on and are answered with the offset expected then; 10 s without data end the
update with result 6. -/
def Obligations.ImageUpdatesComplete : Prop :=
  (∀ t o v s c, s.writable o 0x20 v.toNat = true → s.room 2 = true → v.toNat % 2 = 1 → s.inactiveChip v.toNat = some c →
    s.gon.upd.running = false → s.pwr.fatal = false → s.gon.fwReady = true → completes (.imageUpdateStart t o v) s (fun u =>
      u.gon.upd.running = true ∧ u.gon.upd.chip = c ∧ u.gon.upd.next = 0 ∧ u.gon.upd.lastData = max s.now t ∧
      u.gon.upd.origin = o ∧ u.logged 0x11 o c 0 0xFF)) ∧
  (∀ t m msg rb be s, s.serves m.val msg 3 = true → 8 ≤ (bodyOf msg).length → field (bodyOf msg) 0 4 % 8 = 0 →
    field (bodyOf msg) 4 4 = 0 → s.gon.upd.running = true → field (bodyOf msg) 0 4 = s.gon.upd.next →
    completes (.imageData t m msg rb be) s (fun u =>
      u.gon.upd.next = s.gon.upd.next + ((bodyOf msg).length - 8) ∧
      s.answered m.val msg (if u.gon.upd.running || u.gon.upd.result == 0 then 0 else 6) (bytesOf 4 u.gon.upd.next) u)) ∧
  (∀ t m msg rb be s, s.serves m.val msg 3 = true → 8 ≤ (bodyOf msg).length → field (bodyOf msg) 0 4 % 8 = 0 →
    field (bodyOf msg) 4 4 = 0 → s.gon.upd.running = true → field (bodyOf msg) 0 4 = s.gon.upd.next →
    s.gon.upd.stage = 0 → s.gon.upd.next + ((bodyOf msg).length - 8) < 1024 →
    completes (.imageData t m msg rb be) s (fun u =>
      u.gon.upd = { s.gon.upd with bytes := s.gon.upd.bytes ++ (bodyOf msg).drop 8,
                                   next := s.gon.upd.next + ((bodyOf msg).length - 8), lastData := max s.now t })) ∧
  (∀ t s, s.still = false → s.gon.upd.running = true → s.gon.upd.lastData + 10000 * ms ≤ max s.now t →
    completes (.imageUpdateTimeout t) s (fun u =>
      u.gon.upd.running = false ∧ u.gon.upd.result = 6 ∧
      (s.room 1 = true → u.logged 0x11 s.gon.upd.origin s.gon.upd.chip s.gon.upd.generation.toNat 6)))

/-! ### Envelope (13) -/

/-- KEY_LOAD, KEY_GENERATE, KEY_BIND, KEY_UNBIND and KEY_CLEAR complete (R459, R460): with result 0 the record is stored, generated and
handed out wrapped, bound to its slot, unbound from it, or gone; a load with another result, as where the unwrapping of
notes/assumptions/5.md fails, leaves the record. -/
def Obligations.KeyCommandsComplete : Prop :=
  (∀ o i s, s.writable o 0x60010 (1 + 2 ^ 16 * i.val) = true → s.room 2 = true →
    completes (.keyLoad o i) s (fun u => if s.keyResult o 1 i.val 0 = 0 then
        u.env.result = 0 ∧ (u.keyAt i.val).usable = true ∧ (u.keyAt i.val).record = s.keyData ∧
        (u.keyAt i.val).kind = field s.keyData 1 1 ∧ (u.keyAt i.val).keyId = BitVec.ofNat 32 (field s.keyData 4 4) ∧
        u.logged 0x0E o (i.val + 2 ^ 16 * 1) (field s.keyData 4 4) 0
      else u.keyAt i.val = s.keyAt i.val ∧ u.env.slot = s.env.slot)) ∧
  (∀ o i s, s.writable o 0x60010 (2 + 2 ^ 16 * i.val) = true → s.room 2 = true → s.keyResult o 2 i.val 0 = 0 →
    completes (.keyGenerate o i) s (fun u =>
      u.env.result = 0 ∧ (u.keyAt i.val).usable = true ∧ (u.keyAt i.val).kind = 1 ∧
      u.env.wrapped = (u.keyAt i.val).record ∧ (u.keyAt i.val).record.length = 160)) ∧
  (∀ o i sl s, s.writable o 0x60010 (3 + 2 ^ 8 * sl.val + 2 ^ 16 * i.val) = true → s.room 2 = true →
    s.keyResult o 3 i.val sl.val = 0 → completes (.keyBind o i sl) s (fun u =>
      u.env.result = 0 ∧ (u.keyAt i.val).slot = some sl.val ∧ u.env.slot.get none sl.val = some i.val ∧
      u.logged 0x0E o (i.val + 2 ^ 8 * sl.val + 2 ^ 16 * 3) (s.keyAt i.val).keyId.toNat 0)) ∧
  (∀ o sl s, s.writable o 0x60010 (4 + 2 ^ 8 * sl.val) = true → s.room 2 = true → s.keyResult o 4 0 sl.val = 0 →
    completes (.keyUnbind o sl) s (fun u =>
      u.env.result = 0 ∧ u.env.slot.get none sl.val = none ∧
      ∀ i, s.env.slot.get none sl.val = some i → (u.keyAt i).slot = none)) ∧
  (∀ o i s, s.writable o 0x60010 (5 + 2 ^ 16 * i.val) = true → s.room 2 = true → s.keyResult o 5 i.val 0 = 0 →
    completes (.keyClear o i) s (fun u => u.env.result = 0 ∧ u.keyAt i.val = {}))

/-- AUTO_REKEY, ENV_MEM_READ and ENV_MEM_WRITE complete (R450, R467, R471, R472). Device firmware generates a key, binds it and loads
a rekey start at the horizon; once the rekey is complete it loads the retire; a read of striped or plain Spool space in a slot that
the master may read brings its 32 bytes into the window, a write in one that it may write stores them. -/
def Obligations.AutoRekeyAndSpoolSpaceComplete : Prop :=
  (∀ c i s o j n s1 s2, s.still = false → s.gon.fwReady = true → s.bit 0x60008 16 = true → s.pwr.fatal = false →
    s.env.auto = none → (s.keyAt i.val).slot = some o → 2 ^ 31 ≤ (s.keyAt i.val).counter →
    ((List.range 256).filter (fun j => decide (s.bits 0x60008 7 0 ≤ j) && decide (j ≤ s.bits 0x60008 15 8))).find?
      (fun j => j != 0 && !(s.keyAt j).usable) = some j → s.freeSlot = some n →
    s1 = keyOp (.core c) 2 j 0 s → s1.env.result = 0 → s2 = keyOp (.core c) 3 j n s1 → s2.env.result = 0 →
    (autoLoad c 0 o n s2).sched.result = 0 → completes (.autoRekey c i) s (fun u =>
      u.env.auto = some c ∧ u.env.slot.get none n = some j ∧ (u.keyAt j).kind = 1 ∧
      u.sched = (autoLoad c 0 o n s2).sched)) ∧
  (∀ c d i s, s.still = false → s.gon.fwReady = true → s.bit 0x60008 16 = true → s.pwr.fatal = false → s.env.auto = some d →
    s.env.rkState = 3 → (autoLoad d 3 s.env.rkOld s.env.rkNew s).sched.result = 0 → completes (.autoRekey c i) s (fun u =>
      u.env.auto = none ∧ u.sched = (autoLoad d 3 s.env.rkOld s.env.rkNew s).sched)) ∧
  (∀ (m : Fin 7) (a : BitVec 64) s slot h pc r b, s.still = false → spoolAddr a.toNat = some (slot, h, pc, r, b) →
    inSystem r = false → s.rightsOf m.val slot % 4 = 2 → (s.memWord a.toNat h pc r b).2.2 = false → parityUnit h r = false →
    (s.memWord a.toNat h pc r b).2.1 = slot → completes (.envMemRead m a) s (fun u =>
      u.env.memRefused = false ∧ u.env.memPoison = false ∧ ∀ i : Fin 8, u.reg (0x60420 + 4 * i.val) =
        BitVec.ofNat 32 (field (s.memWord a.toNat h pc r b).1 (4 * i.val) 4))) ∧
  (∀ (m : Fin 7) (a : BitVec 64) ws s slot h pc r b, s.still = false → spoolAddr a.toNat = some (slot, h, pc, r, b) →
    inSystem r = false → s.rightsOf m.val slot / 4 % 2 = 1 → (slot = 0 ∨ (s.env.slot.get none slot).isSome = true) →
    parityUnit h r = false → s.unitRec h pc r = none → completes (.envMemWrite m a ws) s (fun u =>
      u.env.memRefused = false ∧ u.spl.memSlot.get 0 (a.toNat % 2 ^ 38) = slot ∧ ∀ i : Fin 32,
        u.spl.mem.get 0 (a.toNat % 2 ^ 38 + i.val) = (fit 32 0 (ws.flatMap (fun w => bytesOf 4 w.toNat))).getD i.val 0))

/-! ### Gondola (15) -/

/-- MAILBOX_POST, MAILBOX_POP, REG_READ, REG_WRITE, CLOCK_SWITCH, HBM_RETIRE and VERSION complete (R289, R429, R494, R495, R496, R497).
A posted message joins the inbound queue of mailbox 0 and a pop takes the oldest outbound one; each request at the front of its
mailbox leaves it and is answered: with the words read, with the mask of the entries refused, with the result of the switch or of
the retirement, and with the versions and counts. -/
def Obligations.MailboxServicesComplete : Prop :=
  (∀ t s, s.mgmtUp = true → s.writable .mgmt 0x70040 1 = true → (s.mbAt 0).inQ.length < 8 → headerOk s.mbIn = true →
    completes (.mailboxPost t) s (fun u => (u.mbAt 0).inQ = (s.mbAt 0).inQ ++ [s.mbIn] ∧ u.gon.postResult = 0)) ∧
  (∀ t s, s.mgmtUp = true → s.writable .mgmt 0x70040 2 = true → completes (.mailboxPop t) s (fun u =>
    (u.mbAt 0).outQ = (s.mbAt 0).outQ.drop 1 ∧ (u.mbAt 0).inQ = (s.mbAt 0).inQ)) ∧
  (∀ t m msg s a n, s.serves m.val msg 1 = true → 5 ≤ (bodyOf msg).length → a = field (bodyOf msg) 0 4 →
    n = field (bodyOf msg) 4 1 → a % 4 = 0 → 0 < n → n ≤ 60 →
    (∀ i, i < n → words (a + 4 * i) 0x70400 16 = false) → completes (.regRead t m msg) s (s.answered m.val msg 0
      ((readWords (mbOrigin m.val) true ((List.range n).map (fun i => a + 4 * i)) (s.serving t m.val)).1.flatMap
        (fun w => bytesOf 4 w.toNat)))) ∧
  (∀ t m msg s, s.serves m.val msg 1 = true → (bodyOf msg).length < 5 → completes (.regRead t m msg) s
    (s.answered m.val msg 2 [])) ∧
  (∀ t m msg s a w, s.serves m.val msg 2 = true → (bodyOf msg).length = 12 → a = field (bodyOf msg) 0 4 →
    w = (masked ((s.serving t m.val).word a) (BitVec.ofNat 32 (field (bodyOf msg) 4 4))
      (BitVec.ofNat 32 (field (bodyOf msg) 8 4))).toNat → plainAddr a = true → s.pwr.fatal = false → s.room 1 = true →
    (s.serving t m.val).writeRefused (mbOrigin m.val) true a w = false → completes (.regWrite t m msg) s (fun u =>
      u.reg a = s.stored a w ∧ (∀ b, b ≠ a → u.reg b = s.reg b) ∧ u.logged 0x01 (mbOrigin m.val) a w 0 ∧
      (u.mbAt m.val).inQ = (s.mbAt m.val).inQ.drop 1 ∧
      (m.val = 0 → (u.mbAt 0).outQ = (s.mbAt 0).outQ ++ [fwMsg msg.service 1 msg.tag 0 [0, 0, 0]]))) ∧
  (∀ t m msg s d i, s.serves m.val msg 4 = true → 3 ≤ (bodyOf msg).length → d = field (bodyOf msg) 0 2 →
    i = field (bodyOf msg) 2 1 → s.pwr.fatal = false → d < 206 → i ≤ 3 → (s.domAt d).inReset = false →
    (s.domAt d).switching = none → (s.serving t m.val).switchSafe d i = true → s.room 1 = true → protectedDomain d = false →
    (domInputs d).contains i = true → (s.domAt d).edges (s.domAt d).input = true → (s.domAt d).edges i = true →
    s.gon.muxAsk = none → completes (.clockSwitch t m msg) s (fun u => (u.domAt d).input = i ∧ u.gon.muxResult = 0 ∧
      u.logged 0x01 (mbOrigin m.val) 0x50000 (i + 2 ^ 8 * d) 0 ∧ s.answered m.val msg 0 [0] u)) ∧
  (∀ t m msg s h c, s.serves m.val msg 5 = true → 2 ≤ (bodyOf msg).length → h = field (bodyOf msg) 0 1 →
    c = field (bodyOf msg) 1 1 → h ≤ 3 → c ≤ 29 → s.pwr.fatal = false → (s.hbmAt h).unmapped.getLsbD c = false →
    completes (.hbmRetire t m msg) s (fun u => s.answered m.val msg 0 [] u ∧
      (if (s.hbmAt h).used = 3 then (u.hbmAt h).unmapped.getLsbD c = true
       else (u.hbmAt h).rebuild.isSome = true ∧ (u.hbmAt h).unmapped = (s.hbmAt h).unmapped))) ∧
  (∀ t m msg s, s.serves m.val msg 7 = true → completes (.version t m msg) s (s.answered m.val msg 0
    (bytesOf 4 s.trn.fwVersion.toNat ++ bytesOf 4 s.gon.img.gRun.toNat ++ bytesOf 4 s.gon.restarts
      ++ bytesOf 1 s.patchUnits.length ++ bytesOf 1 s.breakUnits.length)))

/-- PATCH_CHUNK, PATCH_COMMIT, PATCH_CLEAR and GON_PATCH complete (R503, R504, R505, R506). A chunk at offset 0 begins a package and
one at its end continues it; a commit that every check passes loads its words into the free units in ascending order and sets the
patch level, and a refused one is answered with its result; a clear and a patch fault disable every unit in patch mode and give
back the image's patch level. -/
def Obligations.PatchingCompletes : Prop :=
  (∀ t m msg s off, s.serves m.val msg 6 = true → 8 ≤ (bodyOf msg).length → field (bodyOf msg) 0 1 = 1 →
    off = field (bodyOf msg) 4 4 → (off = 0 ∨ off = s.gon.pkg.length) → off + ((bodyOf msg).length - 8) ≤ packageMax →
    completes (.patchChunk t m msg) s (fun u =>
      u.gon.pkg = s.gon.pkg.take off ++ (bodyOf msg).drop 8 ∧ s.answered m.val msg 0 [0] u)) ∧
  (∀ t m msg s, s.serves m.val msg 6 = true → 8 ≤ (bodyOf msg).length → field (bodyOf msg) 0 1 = 2 →
    s.room 128 = true → completes (.patchCommit t m msg) s (fun u => if s.commitResult (field (bodyOf msg) 4 4) = 0 then
        s.answered m.val msg 0 [0] u ∧
        u.trn.fwVersion = BitVec.ofNat 32 (s.trn.fwVersion.toNat / 2 ^ 16 * 2 ^ 16 + field s.gon.pkg 12 2) ∧
        ∀ (i : Nat) (x : Nat × List Byte), (packageEntries s.gon.pkg)[i]? = some x → ∃ n, s.freeUnits[i]? = some n ∧
          u.unitAt n = { enable := true, flash := BitVec.ofNat 25 x.1 }
      else s.answered m.val msg 6 (bytesOf 1 (s.commitResult (field (bodyOf msg) 4 4))) u ∧ u.gon.unit = s.gon.unit)) ∧
  (∀ t m msg s, s.serves m.val msg 6 = true → (bodyOf msg).length ≠ 0 → field (bodyOf msg) 0 1 = 3 → s.room 64 = true →
    completes (.patchClear t m msg) s (fun u =>
      s.answered m.val msg 0 [0] u ∧ u.patchUnits = [] ∧ u.trn.fwVersion = s.gon.imgVersion)) ∧
  (∀ s, s.still = false → completes .gonPatch s (fun u =>
    u.patchUnits = [] ∧ u.breakUnits = s.breakUnits ∧ u.trn.fwVersion = s.gon.imgVersion ∧
    (s.armed (srcGlobal 59) = true → s.raisedIn (srcGlobal 59) u)))

/-- GON_ECC, WATCHDOG_EXPIRY, WATCHDOG_RESTART, QUIET_DETECT, CORE_TIMER, LOCK_ACQUIRE, LOCK_RELEASE and LOCK_TIMEOUT complete
(R480, R483, R484, R485, R486, R487, R378). A corrected word is counted with its memory and address; a bad one is poison, a
clean line of a cache apart, and raises gon_ecc, or gon_patch in patch RAM; a watchdog that expires resets its core; a restart
gives a core 10 ms more; four cores in WAIT raise gon_quiet, which ends as core 0 wakes; a timer's event reaches its routed
cores; a read takes a free lock, a write of 0 by its holder gives it back, and after 1 ms it is taken back. -/
def Obligations.CoresAndLocksComplete : Prop :=
  (∀ m a s, s.still = false → completes (.gonEcc ⟨m, true, a⟩) s (fun u => u.gon.eccMem = memCode m ∧ u.gon.eccAddr = a ∧
    u.gon.eccCount = satAdd 65535 s.gon.eccCount 1 ∧ u.gon.codePoison = s.gon.codePoison)) ∧
  (∀ w c a s, s.still = false → completes (.gonEcc ⟨.codeRam w c, false, a⟩) s (fun u =>
    u.gon.codePoison.get false (32 * w) = true ∧ (s.armed (srcGlobal 56) = true → s.raisedIn (srcGlobal 56) u))) ∧
  (∀ w c a s, s.still = false → completes (.gonEcc ⟨.dataRam w c, false, a⟩) s (fun u =>
    u.gon.dataPoison.get false (32 * w) = true ∧ (s.armed (srcGlobal 56) = true → s.raisedIn (srcGlobal 56) u) ∧
    ∀ k, c = some k → (u.coreAt k.val).resets = (s.coreAt k.val).resets + 1)) ∧
  (∀ m w c a s, s.still = false → m = .l1dDirty c w ∨ m = .l2Dirty w → completes (.gonEcc ⟨m, false, a⟩) s (fun u =>
    u.gon.dataPoison.get false (32 * w) = true ∧ (s.armed (srcGlobal 56) = true → s.raisedIn (srcGlobal 56) u))) ∧
  (∀ m c a s, s.still = false → m = .l1i c ∨ m = .l1dClean c ∨ m = .l2Clean → completes (.gonEcc ⟨m, false, a⟩) s (fun u =>
    u.gon.dataPoison = s.gon.dataPoison ∧ u.gon.codePoison = s.gon.codePoison ∧
    (s.armed (srcGlobal 56) = true → s.raisedIn (srcGlobal 56) u))) ∧
  (∀ a s, s.still = false → completes (.gonEcc ⟨.patchRam, false, a⟩) s (fun u => u.patchUnits = [] ∧
    (s.armed (srcGlobal 59) = true → s.raisedIn (srcGlobal 59) u))) ∧
  (∀ a s, s.still = false → s.stepDone 8 = false → completes (.gonEcc ⟨.bootRom, false, a⟩) s (fun u =>
    u.stepDone 8 = true ∧ u.gon.img.noImage = true)) ∧
  (∀ t c d s, s.still = false → (s.coreAt c.val).halted = false →
    (d = true ∨ (s.coreAt c.val).wdt + 10 * ms ≤ max s.now t) → completes (.watchdogExpiry t c d) s (fun u =>
      (u.coreAt c.val).resets = (s.coreAt c.val).resets + 1 ∧ (u.coreAt c.val).epoch = (s.coreAt c.val).epoch + 1 ∧
      (∀ n : Fin 16, (s.gon.lock.get {} n.val).holder = some (.core c) → (u.gon.lock.get {} n.val).holder = none) ∧
      (s.armed (srcGlobal (52 + c.val)) = true → s.raisedIn (srcGlobal (52 + c.val)) u))) ∧
  (∀ o v s, s.writable o 0x70010 v.toNat = true → completes (.watchdogRestart o v) s (fun u =>
    ∀ c : Fin 4, (u.coreAt c.val).wdt = (if v.getLsbD c.val then (if (s.coreAt c.val).halted then 0 else s.now)
      else (s.coreAt c.val).wdt))) ∧
  (∀ t s, s.still = false → (∀ c : Fin 4, (s.coreAt c.val).halted = false) → s.armed (srcGlobal 57) = true →
    completes (.quietDetect t) s (fun u =>
      (u.srcAt (srcGlobal 57)).st = 2 ∧ (u.srcAt (srcGlobal 57)).cond = false ∧
      (u.srcAt (srcGlobal 57)).cls = max (srcMin (srcGlobal 57)) (s.classReg (srcGlobal 57)))) ∧
  (∀ c s, s.still = false → s.calm = true → (s.coreAt c.val).halted = false → completes (.coreTimer c) s (fun u =>
    ∀ k : Fin 4, s.routed (2246 + c.val) k.val = true → (2246 + c.val) ∈ (u.coreAt k.val).events)) ∧
  (∀ t o n s, s.unclocked = false → (s.gon.lock.get {} n.val).holder = none → lockAllowed o n.val = true →
    completes (.lockAcquire t o n) s (fun u =>
      (u.gon.lock.get {} n.val).holder = some o ∧ (u.gon.lock.get {} n.val).since = max s.now t ∧
      ∀ k, k ≠ n.val → u.gon.lock.get {} k = s.gon.lock.get {} k)) ∧
  (∀ o n v s, s.writable o (0x70400 + 4 * n.val) v.toNat = true → v = 0 → (s.gon.lock.get {} n.val).holder = some o →
    completes (.lockRelease o n v) s (fun u => (u.gon.lock.get {} n.val).holder = none ∧
      ∀ k, k ≠ n.val → u.gon.lock.get {} k = s.gon.lock.get {} k)) ∧
  (∀ t n s h, s.still = false → (s.gon.lock.get {} n.val).holder = some h → (s.gon.lock.get {} n.val).since + ms < max s.now t →
    completes (.lockTimeout t n) s (fun u =>
      (u.gon.lock.get {} n.val).holder = none ∧ (u.gon.lock.get {} n.val).revoked = some h ∧
      (s.armed (srcGlobal 58) = true → s.raisedIn (srcGlobal 58) u)))

/-! ### The management bus (15) -/

/-- MGMT_ADDR, MGMT_WRITE, MGMT_READ, MGMT_STATUS, RLEN, ALERT_RESPONSE and MGMT_BAD_TRANSFER complete (R490, R491, R492). An address
fills the read-ahead; a value written to a register that is no command is stored and the address advances; a read answers as many
registers as it takes; a transfer that is malformed or fails its PEC is discarded and raises mgmt_line. -/
def Obligations.ManagementTransfersComplete : Prop :=
  (∀ bs p s, s.transfers p = true → bs.length = 4 → ofBytes bs % 4 = 0 → completes (.mgmtAddr bs p) s (fun u =>
    u.gon.mgmt.addr = BitVec.ofNat 32 (ofBytes bs) ∧ u.gon.mgmt.ahead.length = 4 ∧ u.replies true [] ∧
    u.regs.file = s.regs.file ∧ u.gon.lock = s.gon.lock)) ∧
  (∀ bs p s a, s.transfers p = true → bs.length = 4 → a = s.gon.mgmt.addr → plainAddr a.toNat = true →
    s.writable .mgmt a.toNat (ofBytes bs) = true → completes (.mgmtWrite bs p) s (fun u =>
      u.reg a.toNat = s.stored a.toNat (ofBytes bs) ∧ (∀ b, b ≠ a.toNat → u.reg b = s.reg b) ∧
      u.gon.mgmt.addr = a + 4 ∧ u.replies true [] ∧ u.logged 0x01 .mgmt a.toNat (ofBytes bs) 0)) ∧
  (∀ p n s k, s.transfers p = true → s.gon.mgmt.ahead ≠ [] → k = (if s.smbus then s.gon.mgmt.rlen / 4 else n) →
    completes (.mgmtRead p n) s (fun u =>
      u.gon.mgmt.addr = s.gon.mgmt.addr + BitVec.ofNat 32 (4 * k) ∧
      u.replies true (s.returned 0x12 p ((sendWords k s.onBus).1.flatMap (fun w => bytesOf 4 w.toNat))) ∧
      u.regs.file = s.regs.file)) ∧
  (∀ p s, s.transfers p = true → completes (.mgmtStatus p) s (fun u =>
    u.replies true (s.returned 0x13 p (bytesOf 4 (s.onBus.word 0x70024).toNat)) ∧ u.regs = s.regs)) ∧
  (∀ bs p s, s.transfers p = true → bs.length = 1 → 4 ≤ ofBytes bs → ofBytes bs ≤ 252 → ofBytes bs % 4 = 0 →
    completes (.rlen bs p) s (fun u => u.gon.mgmt.rlen = ofBytes bs ∧ u.replies true [] ∧ u.gon.mgmt.addr = s.gon.mgmt.addr)) ∧
  (∀ s, s.mgmtUp = true → s.smbus = true → s.alertLow = true → completes .alertResponse s (fun u =>
    u.replies true [BitVec.ofNat 8 (2 * (0x58 + s.pwr.strap.toNat / 2 ^ 10 % 16))])) ∧
  (∀ s, s.mgmtUp = true → completes .mgmtBadTransfer s (fun u =>
    u.gon.mgmt.busErr = satAdd 255 s.gon.mgmt.busErr 1 ∧ u.gon.mgmt.addr = s.gon.mgmt.addr ∧ u.regs = s.regs ∧
    (s.armed (srcGlobal 61) = true → (u.srcAt (srcGlobal 61)).st = 2 ∧
      (u.srcAt (srcGlobal 61)).cls = max (srcMin (srcGlobal 61)) (s.classReg (srcGlobal 61)))))

/-- ENTDAA, SETDASA, RSTDAA, ENEC, DISEC, GETPID, GETBCR, GETDCR, GETSTATUS, UNSUPPORTED_CCC, MGMT_LINE, MGMT_LINES_HIGH and IBI_REPEAT
complete (R489, R493, R500). A device without an address takes the one assigned; in-band interrupts are enabled and disabled; the
identity registers are answered; a command that the device does not list is not acknowledged; a line held low resets the bus
interface, which both lines high release. -/
def Obligations.I3cAndLinesComplete : Prop :=
  (∀ a s, s.onI3c = true → s.gon.mgmt.dynAddr = 0 → completes (.entdaa a) s (fun u =>
    u.gon.mgmt.dynAddr = a ∧ u.replies true (pidBytes ++ [0x06, Config.i3cDcr]))) ∧
  (∀ a s, s.onI3c = true → s.gon.mgmt.dynAddr = 0 → completes (.setdasa a) s (fun u =>
    u.gon.mgmt.dynAddr = a ∧ u.replies true [])) ∧
  (∀ s, s.onI3c = true → completes .rstdaa s (fun u => u.gon.mgmt.dynAddr = 0 ∧ u.replies true [])) ∧
  (∀ s, s.onI3c = true → completes .enec s (fun u => u.gon.mgmt.ibi = true ∧ u.replies true [])) ∧
  (∀ s, s.onI3c = true → completes .disec s (fun u => u.gon.mgmt.ibi = false ∧ u.replies true [])) ∧
  (∀ s, s.onI3c = true → completes .getpid s (fun u => u.replies true pidBytes)) ∧
  (∀ s, s.onI3c = true → completes .getbcr s (fun u => u.replies true [0x06])) ∧
  (∀ s, s.onI3c = true → completes .getdcr s (fun u => u.replies true [Config.i3cDcr])) ∧
  (∀ s, s.onI3c = true → completes .getstatus s (fun u => u.gon.mgmt.acked = true ∧ u.gon.mgmt.answer.length = 2)) ∧
  (∀ c s, s.onI3c = true → completes (.unsupportedCcc c) s (fun u =>
    u.replies false [] ∧ u.gon.mgmt.dynAddr = s.gon.mgmt.dynAddr ∧ u.gon.mgmt.ibi = s.gon.mgmt.ibi)) ∧
  (∀ t s, s.still = false → s.mgmtMode ≠ 3 → completes (.mgmtLine t) s (fun u =>
    u.gon.mgmt.stuck = true ∧ u.gon.mgmt.busErr = satAdd 255 s.gon.mgmt.busErr 1 ∧ u.gon.mgmt.dynAddr = 0 ∧
    (s.armed (srcGlobal 61) = true → s.raisedIn (srcGlobal 61) u))) ∧
  (∀ t s, s.still = false → completes (.mgmtLinesHigh t) s (fun u =>
    u.gon.mgmt.stuck = false ∧ (u.srcAt (srcGlobal 61)).cond = false)) ∧
  (∀ t s, s.still = false → s.calm = true → completes (.ibiRepeat t true) s (fun u => u.gon.mgmt.ibiPend = none)) ∧
  (∀ t s, s.still = false → s.calm = true → s.gon.mgmt.ibiPend = some 1 → s.alertRecord = true →
    completes (.ibiRepeat t false) s (fun u => u.gon.mgmt.ibiPend = some 1))

/-! ### The debug wire (15) -/

/-- IDENT, CHALLENGE, RESPOND and END complete (R512, R514, R515, R523). The identity words are answered; a challenge is issued and
awaits its response; a matching MAC opens the session at its level, a wrong one starts a lockout; END closes the session and takes its
breakpoints and halts.
DBG_FRAME_ABANDON, DBG_COMMAND_TIMEOUT, DBG_BAD_FRAME, CHALLENGE_VOID, LOCKOUT_END and DBG_SESSION_IDLE complete (R508, R509, R510, R511,
R513, R514, R515, R523, R525). A line held too long abandons the frame; a command that takes too long is answered with status 7, a
frame whose CRC fails with 2, one that no command has the form of with 3, and neither changes the session; a challenge is void after
10 s; a lockout ends; a session without a frame for 60 s ends. -/
def Obligations.DebugSessionsComplete : Prop :=
  (∀ t i s, s.framed 0 1 = true → i.toNat ≤ 3 → completes (.ident t i) s (fun u =>
    (i = 0 → u.tells 0 [0x06424B57]) ∧ (i = 1 → u.tells 0 [BitVec.ofNat 32 (s.dbgIdentity.toNat / 2 ^ 32)]) ∧
    (i = 2 → u.tells 0 [BitVec.ofNat 32 (s.dbgIdentity.toNat % 2 ^ 32)]) ∧ u.dbg.status = 0 ∧ u.dbg.answer.length = 1)) ∧
  (∀ t a s level i, s.framed 0 1 = true → a.toNat < 2 ^ 16 → level = a.toNat / 2 ^ 8 → i = a.toNat % 256 →
    (level = 1 ∨ level = 2) →
    i ≠ 0 → (s.at t).challengeCheck level i = 0 → completes (.challenge t a) s (fun u =>
      u.dbg.chal = some (BitVec.ofNat 128 s.free.1, max s.now t, level, i) ∧ u.dbg.status = 0 ∧ u.dbg.answer.length = 4 ∧
      u.dbg.isOpen = s.dbg.isOpen)) ∧
  (∀ t mac s c e level i, s.framed 0 1 = true → (s.at t).expectedMac = some mac → s.dbg.chal = some (c, e, level, i) →
    completes (.respond t mac) s (fun u =>
      u.dbg.isOpen = true ∧ u.dbg.level = (if s.dbg.isOpen then max s.dbg.level level else level) ∧ u.dbg.chal = none ∧
      u.dbg.fails = 0 ∧ u.dbg.lockEnd = none ∧ u.tells 0 [] ∧ (s.armed (srcGlobal 74) = true → s.raisedIn (srcGlobal 74) u))) ∧
  (∀ t mac s, s.framed 0 1 = true → (s.at t).expectedMac ≠ some mac → completes (.respond t mac) s (fun u =>
      u.dbg.isOpen = s.dbg.isOpen ∧ u.dbg.chal = none ∧ u.dbg.fails = s.dbg.fails + 1 ∧
      u.dbg.lockEnd = some (max s.now t + min 1024 (2 ^ s.dbg.fails) * sec) ∧ u.tells 6 [] ∧
      (s.armed (srcGlobal 73) = true → s.raisedIn (srcGlobal 73) u))) ∧
  (∀ t s, s.framed 1 1 = true → completes (.endSession t) s (fun u =>
    u.dbg.isOpen = false ∧ u.dbg.level = 0 ∧ u.dbg.hos = 0 ∧ u.breakUnits = [] ∧
    (∀ c : Fin 4, (u.coreAt c.val).halted = false) ∧ u.tells 0 [])) ∧
  (∀ s, s.pwr.por = false → completes .dbgFrameAbandon s (fun u =>
    u.dbg.abandoned = true ∧ u.dbg.answer = [] ∧ u.dbg.isOpen = s.dbg.isOpen)) ∧
  (∀ s, s.dbgServed = true → completes .dbgCommandTimeout s (State.tells · 7 [])) ∧
  (∀ t unit lows s bs body, s.dbgServed = true → bs = cellBytes unit lows → body = bs.take (bs.length - 1) →
    (lows.length % 8 ≠ 0 ∨ body = [] ∨ crc8 (unpackBits body) ≠ field bs (bs.length - 1) 1) →
    completes (.dbgBadFrame t unit lows) s (fun u =>
      u.tells 2 [] ∧ u.dbg.isOpen = s.dbg.isOpen ∧ u.dbg.level = s.dbg.level ∧ u.regs = s.regs)) ∧
  (∀ t unit lows s bs body, s.dbgServed = true → bs = cellBytes unit lows → body = bs.take (bs.length - 1) →
    lows.length % 8 = 0 → body ≠ [] → crc8 (unpackBits body) = field bs (bs.length - 1) 1 →
    (dbgArgs (field bs 0 1) ≠ some (body.length / 4) ∨ body.length % 4 ≠ 1) → s.room 1 = true →
    completes (.dbgBadFrame t unit lows) s (fun u =>
      u.tells 3 [] ∧ u.dbg.isOpen = s.dbg.isOpen ∧ u.dbg.level = s.dbg.level ∧ u.regs = s.regs)) ∧
  (∀ t s c e l i, s.dbg.chal = some (c, e, l, i) → e + 10 * sec ≤ max s.now t → completes (.challengeVoid t) s (fun u =>
    u.dbg.chal = none ∧ u.dbg.fails = s.dbg.fails)) ∧
  (∀ t s e, s.dbg.lockEnd = some e → e ≤ max s.now t → completes (.lockoutEnd t) s (fun u =>
    u.dbg.lockEnd = none ∧ u.dbg.fails = s.dbg.fails)) ∧
  (∀ t s, s.dbgServed = true → s.dbg.isOpen = true → s.dbg.lastFrame + 60 * sec ≤ max s.now t →
    completes (.dbgSessionIdle t) s (fun u =>
      u.dbg.isOpen = false ∧ u.dbg.level = 0 ∧ u.breakUnits = [] ∧ ∀ c : Fin 4, (u.coreAt c.val).halted = false))

/-- The debug wire's REG_READ, REG_WRITE, MEM_READ, MEM_WRITE, GMEM_READ and GMEM_WRITE complete (R512, R517, R518): a register's word, a
word of Spool space as master 4, a word of a Gondola memory; writes of data RAM alone. -/
def Obligations.DebugAccessesComplete : Prop :=
  (∀ t a s, s.framed 1 1 = true → a.toNat % 4 = 0 → completes (.dbgRegRead t a) s (fun u =>
    u.tells 0 [(readWord .debug false a.toNat (s.commanded t { code := 5, level := 1, a := a.toNat })).1] ∧
    u.regs.file = s.regs.file)) ∧
  (∀ t a v s, s.framed 2 2 = true → a.toNat % 4 = 0 → plainAddr a.toNat = true →
    s.writeRefused .debug false a.toNat v.toNat = false → completes (.dbgRegWrite t a v) s (fun u =>
      u.tells 0 [] ∧ u.reg a.toNat = s.stored a.toNat v.toNat ∧ (∀ b, b ≠ a.toNat → u.reg b = s.reg b) ∧
      u.logged 0x01 .debug a.toNat v.toNat 0)) ∧
  (∀ t hi lo s slot h pc r b, s.framed 1 1 = true → spoolBad hi lo = false → s.pwr.fatal = false →
    spoolAddr (hi.toNat * 2 ^ 32 + lo.toNat) = some (slot, h, pc, r, b) → inSystem r = false → s.rightsOf 4 slot % 4 = 2 →
    (s.memWord (hi.toNat * 2 ^ 32 + lo.toNat) h pc r b).2.2 = false → parityUnit h r = false →
    (s.memWord (hi.toNat * 2 ^ 32 + lo.toNat) h pc r b).2.1 = slot → completes (.memRead t hi lo) s (fun u =>
      u.tells 0 ((List.range 8).map (fun i =>
        BitVec.ofNat 32 (field (s.memWord (hi.toNat * 2 ^ 32 + lo.toNat) h pc r b).1 (4 * i) 4))) ∧
      u.regs = s.regs)) ∧
  (∀ t hi lo ws s slot h pc r b, s.framed 2 1 = true → spoolBad hi lo = false → ws.length = 8 →
    spoolAddr (hi.toNat * 2 ^ 32 + lo.toNat) = some (slot, h, pc, r, b) → inSystem r = false → s.rightsOf 4 slot / 4 % 2 = 1 →
    (slot = 0 ∨ (s.env.slot.get none slot).isSome = true) → parityUnit h r = false → s.unitRec h pc r = none →
    completes (.memWrite t hi lo ws) s (fun u =>
      u.tells 0 [] ∧ u.regs = s.regs ∧ ∀ i : Fin 32, u.spl.mem.get 0 ((hi.toNat * 2 ^ 32 + lo.toNat) % 2 ^ 38 + i.val) =
        (ws.flatMap (fun w => bytesOf 4 w.toNat)).getD i.val 0)) ∧
  (∀ t m a s, s.framed 1 1 = true → gmemBad m a = false → m.toNat ≠ 3 → (s.gmemWord m.toNat a.toNat).2 = false →
    completes (.gmemRead t m a) s (fun u =>
      u.tells 0 ((List.range 8).map (fun i => BitVec.ofNat 32 (byteWord (s.gmemWord m.toNat a.toNat).1 i))) ∧
      u.gon.code = s.gon.code ∧ u.gon.data = s.gon.data ∧ u.gon.patch = s.gon.patch)) ∧
  (∀ t a ws s, s.framed 2 1 = true → gmemBad 1 a = false → ws.length = 8 → completes (.gmemWrite t 1 a ws) s (fun u =>
    u.tells 0 [] ∧ u.gon.code = s.gon.code ∧ u.gon.patch = s.gon.patch ∧ u.gon.dataPoison.get false a.toNat = false ∧
    (∀ i : Fin 32, u.gon.data.get 0 (a.toNat + i.val) = (ws.flatMap (fun w => bytesOf 4 w.toNat)).getD i.val 0) ∧
    ∀ k, (k < a.toNat ∨ a.toNat + 32 ≤ k) → u.gon.data.get 0 k = s.gon.data.get 0 k))

/-- The debug wire's run control completes (R512, R519, R520, R521, R522): halt, resume, step and halt-on-start of a core mask, the
state words of a halted core, breakpoint units, and a breakpoint's hit, which halts its core. -/
def Obligations.RunControlCompletes : Prop :=
  (∀ t a s, s.framed 2 1 = true → a.toNat / 2 ^ 8 = 0 → a.toNat / 8 % 2 = 0 → completes (.dbgHalt t a) s (fun u =>
    u.tells 0 [] ∧ ∀ c : Fin 4, (u.coreAt c.val).halted =
      ((s.coreAt c.val).halted || Nat.testBit (runMask (runArg 1 a)) c.val))) ∧
  (∀ t a s, s.framed 2 1 = true → a.toNat / 2 ^ 8 = 0 → a.toNat / 8 % 2 = 0 → completes (.dbgResume t a) s (fun u =>
    u.tells 0 [] ∧ ∀ c : Fin 4, (u.coreAt c.val).halted =
      ((s.coreAt c.val).halted && !Nat.testBit (runMask (runArg 2 a)) c.val))) ∧
  (∀ t a s, s.framed 2 1 = true → a.toNat / 2 ^ 8 % 256 = 0 → a.toNat / 2 ^ 16 ≠ 0 → a.toNat / 8 % 2 = 0 →
    (∀ c : Fin 4, Nat.testBit (runMask (runArg 3 a)) c.val = true → (s.coreAt c.val).halted = true) →
    completes (.dbgStep t a) s (fun u => u.tells 0 [] ∧ ∀ c : Fin 4, Nat.testBit (runMask (runArg 3 a)) c.val = true →
      (u.coreAt c.val).halted = true ∧ (u.coreAt c.val).cause = 3 ∧ (u.coreAt c.val).epoch = (s.coreAt c.val).epoch + 1)) ∧
  (∀ t a s, s.framed 2 1 = true → a.toNat / 2 ^ 8 = 0 → a.toNat / 8 % 2 = 0 → completes (.dbgHaltOnStart t a) s (fun u =>
    u.tells 0 [] ∧ u.dbg.hos = BitVec.ofNat 4 (runMask (runArg 4 a)) ∧ u.gon.unit = s.gon.unit)) ∧
  (∀ t a s, s.framed 1 1 = true → a.toNat < 2 ^ 10 → (s.coreAt (coreOf a)).halted = true → completes (.coreRead t a) s
    (State.tells · 0 [BitVec.ofNat 32 ((s.coreWord (coreOf a) (indexOf a)).toNat / 2 ^ 32),
      BitVec.ofNat 32 (s.coreWord (coreOf a) (indexOf a)).toNat])) ∧
  (∀ t a (hi lo : Word) s, s.framed 2 1 = true → a.toNat < 2 ^ 10 → (s.coreAt (coreOf a)).halted = true →
    completes (.coreWrite t a hi lo) s (fun u => u.tells 0 [] ∧ u.coreWord (coreOf a) (indexOf a) = hi ++ lo ∧
      ∀ i, i ≠ indexOf a → u.coreWord (coreOf a) i = s.coreWord (coreOf a) i)) ∧
  (∀ t a f s v n, s.framed 2 2 = true → v = a.toNat / 2 * 2 + 1 → bkptBad v = false → s.flashOk f.toNat = true → n = bkptUnit v →
    ((s.unitAt n).enable = false ∨ (s.unitAt n).brk = true) → completes (.bkptEnable t a f) s (fun u =>
      u.tells 0 [] ∧ u.unitAt n = { enable := true, brk := true, mask := BitVec.ofNat 4 (v / 2 ^ 8), all := Nat.testBit v 1,
                                    flash := BitVec.ofNat 25 f.toNat } ∧
      u.logged 0x0F .debug n 0xFFFFFFFE 0 ∧ ∀ k, k ≠ n → u.unitAt k = s.unitAt k)) ∧
  (∀ t a f s v n, s.framed 2 2 = true → v = a.toNat / 2 * 2 → bkptBad v = false → n = bkptUnit v → (s.unitAt n).enable = true →
    completes (.bkptDisable t a f) s (fun u => u.tells 0 [] ∧ u.unitAt n = {} ∧ u.logged 0x0F .debug n 0xFFFFFFFF 0 ∧
      ∀ k, k ≠ n → u.unitAt k = s.unitAt k)) ∧
  (∀ c n s, s.still = false → (s.unitAt n.val).enable = true → (s.unitAt n.val).brk = true →
    (s.unitAt n.val).mask.getLsbD c.val = true → (s.coreAt c.val).halted = false → completes (.breakpointHit c n) s (fun u =>
      (u.coreAt c.val).halted = true ∧ (u.coreAt c.val).cause = 2 ∧ (u.coreAt c.val).unit = n.val ∧
      ((s.unitAt n.val).all = true → ∀ k : Fin 4, (s.unitAt n.val).mask.getLsbD k.val = true → (u.coreAt k.val).halted = true)))

/-! ### The block as a whole -/

/-- A step runs the command at the front of the queue, with the queue's rest, and every step goes on: no command is a fault or a
refusal. On an empty queue one nanosecond passes: that is the model's choice (notes/assumptions/2.md). -/
def Obligations.StepRunsTheFrontCommand : Prop :=
  (∀ c s, step { s with pending := c :: s.pending } = exec c s) ∧
  (∀ c rest s, s.pending = c :: rest → step s = exec c { s with pending := rest }) ∧
  (∀ s, s.pending = [] → step s = .next { s with now := s.now + 4 }) ∧
  (∀ s, goesOn s)

/-- After power-on (R433, R437, R529, R562): power-on reset holds, nothing waits, every register reads its reset value, the beat state
is NONE, the schedule table, the stage sets, the fault record queue and the Logbook are empty, every source is IDLE, and every lane is
unassigned with its transmitter at high impedance. -/
def Obligations.ResetLeavesTheBlockEmpty : Prop :=
  State.reset.pwr.por = true ∧ State.reset.pwr.fatal = false ∧ State.reset.pending = [] ∧
  (∀ a, State.reset.reg a = regReset a) ∧ State.reset.beat.st = .none ∧ (∀ k, (State.reset.schedAt k).valid = false) ∧
  (∀ k, State.reset.stg.sets.get [] k = []) ∧ State.reset.flt.recs = [] ∧ State.reset.log.ring = [] ∧ State.reset.log.newest = 0 ∧
  (∀ n, (State.reset.srcAt n).st = 0) ∧ (∀ l, (State.reset.laneAt l).st = .unassigned ∧ State.reset.txPin l = .highZ) ∧
  (∀ m, (State.reset.mbAt m).inQ = [] ∧ (State.reset.mbAt m).outQ = [])

/-- After power-on FAULT_N and ALERT_N stand as their conditions give: both are released (R368, R369). -/
def Obligations.ResetPinsFollow : Prop :=
  State.reset.pinsFollow = true ∧ State.reset.outLow = (false, false)

/-- FAULT_N is low exactly while a source is uncleared, in Fatal or after a clock loss, and ALERT_N exactly while a qualifying record
or a mailbox message waits or in Fatal, and both are released in the resets: every step keeps this (R368, R369, R500). -/
def Obligations.PinsFollowTheirConditions : Prop :=
  ∀ s t, s.pinsFollow = true → step s = .next t →
    t.pinsFollow = true ∧
    t.flt.faultN = (!(t.pwr.por || t.pwr.dev) && (t.anyUncleared || t.pwr.fatal || t.pwr.clkLost)) ∧
    t.flt.alertN = (!(t.pwr.por || t.pwr.dev) && (t.alertRecord || t.alertMailbox || t.pwr.fatal))

/-! ### Frames -/

/-- The commands of the monitors, of Ripcord, of Gondola's cores and locks, of the management bus and of the debug wire that
Sys2Proof/Safety.lean lists (`sparing`) leave the queue, every register, the schedule table, the stage sets, the clock domains, the
quads, Reel, the store, Envelope, the train unit, beat time, every lane and every byte of memory as they stood. What a time stamp takes
of the pre-beat number (R5) and what a safe state does to its path's lanes (R363: a transmitter in electrical idle, a ladder stopped with
its anchors, eligibility and precoding) is left open: that is how `keepsBeat` and `keepsLanes` read. -/
def Obligations.MonitorsAndAccessesSpareTheRest : Prop :=
  ∀ c s u, sparing c = true → exec c s = .next u →
    s.keepsProgram u ∧ s.keepsUnits u ∧ u.trn = s.trn ∧ s.keepsBeat u ∧ s.keepsLanes u (fun _ => True) ∧ s.keepsMemory u

/-- An event of one lane leaves every other lane, the queue, every register, the schedule table, the stage sets, the units, the train
unit, beat time and every byte of memory as they stood; a command of the train unit leaves all that, and every lane; both up to what
a time stamp takes (R5) and what a safe state does to its path's lanes (R363). -/
def Obligations.LaneAndTrainEventsSpareTheRest : Prop :=
  (∀ c l s u, laneOf c = some l → exec c s = .next u →
    s.keepsProgram u ∧ s.keepsUnits u ∧ u.trn = s.trn ∧ s.keepsBeat u ∧ s.keepsLanes u (fun k => k ≠ l) ∧ s.keepsMemory u) ∧
  (∀ c s u, ofTrain c = true → exec c s = .next u →
    s.keepsProgram u ∧ s.keepsUnits u ∧ s.keepsBeat u ∧ s.keepsLanes u (fun _ => True) ∧ s.keepsMemory u)

/-- SCHED_LOAD and SCHED_CANCEL change no slot of the table but their own and no register; STAGE_APPEND and STAGE_CLEAR no set but their
own and no register; the commands of ENV_KEY_CMD no other index, no other slot and no register; none of them a unit of the datapath or
a byte of memory, nor a lane, up to what a safe state does to its path's lanes (R59, R363, R401, R459). -/
def Obligations.TableCommandsSpareTheRest : Prop :=
  (∀ o k a b c d s u, exec (.schedLoad o k a b c d) s = .next u → u.pending = s.pending ∧ u.regs = s.regs ∧ u.stg = s.stg ∧
    s.keepsUnits u ∧ u.trn = s.trn ∧ s.keepsBeat u ∧ s.keepsLanes u (fun _ => True) ∧ s.keepsMemory u ∧
    ∀ j, j ≠ k.val → u.schedAt j = s.schedAt j) ∧
  (∀ o k s u, exec (.schedCancel o k) s = .next u → u.pending = s.pending ∧ u.regs = s.regs ∧ u.stg = s.stg ∧
    s.keepsUnits u ∧ u.trn = s.trn ∧ s.keepsBeat u ∧ s.keepsLanes u (fun _ => True) ∧ s.keepsMemory u ∧
    ∀ j, j ≠ k.val → u.schedAt j = s.schedAt j) ∧
  (∀ o k a v m s u, exec (.stageAppend o k a v m) s = .next u → u.pending = s.pending ∧ u.regs = s.regs ∧ u.sched = s.sched ∧
    s.keepsUnits u ∧ u.trn = s.trn ∧ s.keepsBeat u ∧ s.keepsLanes u (fun _ => True) ∧ s.keepsMemory u ∧
    ∀ j, j ≠ k.val → u.stg.sets.get [] j = s.stg.sets.get [] j) ∧
  (∀ o k s u, exec (.stageClear o k) s = .next u → u.pending = s.pending ∧ u.regs = s.regs ∧ u.sched = s.sched ∧
    s.keepsUnits u ∧ u.trn = s.trn ∧ s.keepsBeat u ∧ s.keepsLanes u (fun _ => True) ∧ s.keepsMemory u ∧
    ∀ j, j ≠ k.val → u.stg.sets.get [] j = s.stg.sets.get [] j) ∧
  (∀ o i c s u, (c = .keyLoad o i ∨ c = .keyGenerate o i ∨ c = .keyClear o i) → exec c s = .next u →
    s.keepsProgram u ∧ u.dom = s.dom ∧ u.quad = s.quad ∧ u.reel = s.reel ∧ u.sto = s.sto ∧ u.trn = s.trn ∧ s.keepsBeat u ∧
    s.keepsLanes u (fun _ => True) ∧ s.keepsMemory u ∧ u.env.slot = s.env.slot ∧ ∀ j, j ≠ i.val → u.keyAt j = s.keyAt j) ∧
  (∀ o i k c s u, (c = .keyBind o i k ∨ c = .keyUnbind o k) → exec c s = .next u →
    s.keepsProgram u ∧ u.dom = s.dom ∧ u.quad = s.quad ∧ u.reel = s.reel ∧ u.sto = s.sto ∧ u.trn = s.trn ∧ s.keepsBeat u ∧
    s.keepsLanes u (fun _ => True) ∧ s.keepsMemory u ∧ ∀ j, j ≠ k.val → u.env.slot.get none j = s.env.slot.get none j)

/-- Reads through the management bus, a mailbox and the debug wire, and a wide read, change no stored register word, no schedule or
staging, no unit or byte of memory, nor a lane, up to what a safe state does to its path's lanes (R363); what they may change is a read
latch, a lock and their own interface (R487, R492, R517, R527). -/
def Obligations.ReadsSpareTheRest : Prop :=
  (∀ c s u, ((∃ o a, c = .wideRegisterRead o a) ∨ (∃ bs p, c = .mgmtAddr bs p) ∨ (∃ p n, c = .mgmtRead p n) ∨
      (∃ t m msg, c = .regRead t m msg) ∨ (∃ t a, c = .dbgRegRead t a)) → exec c s = .next u →
    u.pending = s.pending ∧ u.regs.file = s.regs.file ∧ u.sched = s.sched ∧ u.stg = s.stg ∧ s.keepsUnits u ∧ u.trn = s.trn ∧
    s.keepsBeat u ∧ s.keepsLanes u (fun _ => True) ∧ s.keepsMemory u)

/-! ### Rules of the manual -/

/-- R526: every register sits at a 4-byte-aligned address and every access moves one 32-bit word; a read of an address that holds no
register returns 0 (and changes nothing), and a write to it is refused: it is counted and logged as REG_WRITE with the refused
flag. -/
def Obligations.AnAddressWithoutRegister : Prop :=
  (∀ a, (regInfo a).isSome = true → a % 4 = 0) ∧
  (∀ o mb a s, regInfo a = none → readWord o mb a s = ((0 : BitVec 32), s)) ∧
  (∀ o a v s, s.unclocked = false → s.room 1 = true → regInfo a.toNat = none → completes (.registerWrite o a v) s (fun u =>
    u.pwr.refused = satAdd 65535 s.pwr.refused 1 ∧ u.logged 0x01 o a.toNat v.toNat 1 ∧ s.keepsProgram u))

/-- R493: a line held low for more than 35 ms: the device releases both lines, resets its bus interface and raises mgmt_line; the
condition ends when both lines have been high for 50 µs; in mode 3 the pins stay at high impedance and the device takes no part in
the bus. -/
def Obligations.AStuckManagementLine : Prop :=
  (∀ t s, s.still = false → s.mgmtMode ≠ 3 → completes (.mgmtLine t) s (fun u =>
    u.mgmtPins = .released ∧ u.gon.mgmt.addr = 0 ∧ u.gon.mgmt.rlen = 32 ∧ u.gon.mgmt.ahead = [] ∧ u.gon.mgmt.dynAddr = 0 ∧
    u.gon.mgmt.ibi = false ∧ u.gon.mgmt.answer = [] ∧
    (s.armed (srcGlobal 61) = true → s.raisedIn (srcGlobal 61) u ∧ (u.srcAt (srcGlobal 61)).cond = true))) ∧
  (∀ t s, s.still = false → completes (.mgmtLinesHigh t) s (fun u =>
    (u.srcAt (srcGlobal 61)).cond = false ∧ u.gon.mgmt.stuck = false)) ∧
  (∀ s : State, s.mgmtMode = 3 → s.inReset = false → s.gon.mgmt.stuck = false → s.mgmtPins = .highZ) ∧
  (∀ t s, s.mgmtMode = 3 → completes (.mgmtLine t) s (fun u =>
    u.gon.mgmt.stuck = s.gon.mgmt.stuck ∧ u.srcAt (srcGlobal 61) = s.srcAt (srcGlobal 61))) ∧
  (∀ bs p n a b s, s.mgmtMode = 3 → s.still = false → ∀ c ∈ [.mgmtAddr bs p, .mgmtWrite bs p, .mgmtRead p n, .mgmtStatus p,
      .rlen bs p, .mgmtBadTransfer, .alertResponse, .entdaa a, .setdasa a, .rstdaa, .enec, .disec, .getpid, .getbcr, .getdcr,
      .getstatus, .unsupportedCcc b],
    completes c s (fun u => u.replies false [] ∧ s.keepsProgram u ∧ u.gon.mgmt.addr = s.gon.mgmt.addr ∧
      u.gon.mgmt.dynAddr = s.gon.mgmt.dynAddr))

/-- In Fatal every register write is refused except through the debug wire, and is counted; nothing that it names changes (R371). The
schedule and staging commands are register writes. -/
def Obligations.FatalRefusesWrites : Prop :=
  (∀ o a v s, s.unclocked = false → s.pwr.fatal = true → o ≠ .debug → completes (.registerWrite o a v) s (fun u =>
    u.pwr.refused = satAdd 65535 s.pwr.refused 1 ∧ u.pwr.fatal = true ∧ s.keepsProgram u ∧ s.keepsUnits u ∧ s.keepsMemory u)) ∧
  (∀ o k a v m s, s.unclocked = false → s.pwr.fatal = true → o ≠ .debug → completes (.stageAppend o k a v m) s (fun u =>
    u.pwr.refused = satAdd 65535 s.pwr.refused 1 ∧ u.pwr.fatal = true ∧ s.keepsProgram u ∧ s.keepsUnits u ∧ s.keepsMemory u)) ∧
  (∀ o k s, s.unclocked = false → s.pwr.fatal = true → o ≠ .debug → completes (.stageClear o k) s (fun u =>
    u.pwr.refused = satAdd 65535 s.pwr.refused 1 ∧ u.pwr.fatal = true ∧ s.keepsProgram u ∧ s.keepsUnits u ∧ s.keepsMemory u)) ∧
  (∀ o k a b c d s, s.unclocked = false → s.pwr.fatal = true → o ≠ .debug → completes (.schedLoad o k a b c d) s (fun u =>
    u.pwr.refused = satAdd 65535 s.pwr.refused 1 ∧ u.pwr.fatal = true ∧ s.keepsProgram u ∧ s.keepsUnits u ∧ s.keepsMemory u)) ∧
  (∀ o k s, s.unclocked = false → s.pwr.fatal = true → o ≠ .debug → completes (.schedCancel o k) s (fun u =>
    u.pwr.refused = satAdd 65535 s.pwr.refused 1 ∧ u.pwr.fatal = true ∧ s.keepsProgram u ∧ s.keepsUnits u ∧ s.keepsMemory u))
end

