-- ==== Sys2Proof/WellFormed.lean ====
section
/-! DEFINITION. Which commands are well formed: the operands whose type is wider than what the spec lets them hold. Nothing sends the
block an ill-formed command; a command's meaning is defined on it nevertheless. -/

namespace Sys2Proof

/-- The section type of an image origin is one of the seven (R389, R412). -/
def Origin.wf : Origin → Bool
  | .image t => decide (1 ≤ t ∧ t ≤ 7)
  | .core _ | .mgmt | .ctrlFlit _ | .trainPeer _ | .debug | .hardware => true

/-- A strap pin has eight readings in each phase (R564). -/
def StrapPin.wf (p : StrapPin) : Bool := decide (p.up.length = 8) && decide (p.down.length = 8)

/-- A fuse word has three readings of each copy (R439). -/
def FuseReads.wf (f : FuseReads) : Bool := decide (f.a.length = 3) && decide (f.b.length = 3)

/-- An image has at most 2^25 bytes (R387), and a hash for each section. -/
def NvmChip.wf (c : NvmChip) : Bool := decide (c.bytes.length ≤ 2 ^ 25) && decide (c.shas.length = 7)

/-- A flit is 1,152 symbols long (R188). -/
def RxFlit.wf (f : RxFlit) : Bool := decide (f.levels.length = 1152)

/-- A transmitter has six taps (R83). -/
def PartnerReq.wf : PartnerReq → Bool
  | .taps want => decide (want.length = 6)
  | .none | .preset _ => true

/-- Each byte of a decoded unit has its lane (R311). -/
def DecUnit.wf (u : DecUnit) : Bool := decide (u.bytes.length = u.lanes.length)

/-- A D port has at most 16 lanes (R155). -/
def DRx.wf (r : DRx) : Bool := decide (r.bits.length ≤ 16) && decide (r.samples.length ≤ 16) && r.units.all DecUnit.wf

/-- A block read from a drive is 4,096 bytes (R283, R462). -/
def DriveDone.wf : DriveDone → Bool
  | .readRecord _ b _ => decide (b.length = 4096)
  | .rowWrite _ | .rebuildRow _ | .rebuildEnd | .snapshot => true

/-- A mailbox message is 256 bytes: a header of 16 with eight reserved bytes, and a body of 240 (R494). -/
def MbMsg.wf (m : MbMsg) : Bool := decide (m.rsv8.length = 8) && decide (m.body.length = 240)

/-- A word lies in its Gondola memory: 8 MiB of code RAM, 4 MiB of data RAM, in words of 32 bytes (R480). -/
def GonMem.wf : GonMem → Bool
  | .codeRam w _ => decide (w < 2 ^ 18)
  | .dataRam w _ | .l1dDirty _ w | .l2Dirty w => decide (w < 2 ^ 17)
  | .l1i _ | .l1dClean _ | .l2Clean | .bootRom | .patchRam => true

/-- A command is well formed. -/
def Instr.wf : Instr → Bool
  | .supplyGood _ pins => decide (pins.length = 10) && pins.all StrapPin.wf
  | .pllLock _ fuses _ _ => fuses.all FuseReads.wf
  | .imageLoadComplete _ a b => a.wf && b.wf
  | .schedLoad o _ _ _ _ _ => o.wf
  | .schedCancel o _ => o.wf
  | .nop f _ => f.origin.wf
  | .stageApply f _ _ _ => f.origin.wf
  | .modeSet f _ _ => f.origin.wf
  | .captureOpen f _ _ => f.origin.wf
  | .captureClose f _ => f.origin.wf
  | .windowOpen f _ _ _ => f.origin.wf
  | .windowClose f _ _ => f.origin.wf
  | .spareSwap f _ _ _ => f.origin.wf
  | .rekeyStart f _ _ => f.origin.wf
  | .rekeyPause f _ _ => f.origin.wf
  | .rekeyResume f _ _ => f.origin.wf
  | .rekeyRetire f _ _ => f.origin.wf
  | .adaptFreeze f _ => f.origin.wf
  | .adaptUnfreeze f _ => f.origin.wf
  | .logMark f _ => f.origin.wf
  | .stimStart f _ _ => f.origin.wf
  | .stimStop f _ => f.origin.wf
  | .triggerArm f _ _ => f.origin.wf
  | .triggerDisarm f _ _ => f.origin.wf
  | .markSend f _ _ => f.origin.wf
  | .adaptationUpdate _ _ _ eq req => decide (eq.ffe.length = 24) && req.wf
  | .calibration _ good terms => decide (good.length = 4) && decide (terms.length = 4)
  | .wskScanEnd _ _ points => decide (points.length ≤ 256)
  | .data _ _ flit units => flit.wf && units.all DecUnit.wf
  | .lineEvent _ _ flit => flit.wf
  | .refuse _ _ flit => flit.wf
  | .ack _ _ flit => flit.wf
  | .nak _ _ flit => flit.wf
  | .idle _ _ flit => flit.wf
  | .faultFlit _ _ flit => flit.wf
  | .mark _ _ flit => flit.wf
  | .beatEcho _ _ flit => flit.wf
  | .tunnelStart _ _ flit => flit.wf
  | .startAck _ _ flit => flit.wf
  | .resume _ _ flit => flit.wf
  | .resumeAck _ _ flit => flit.wf
  | .drop _ _ flit => flit.wf
  | .dropAck _ _ flit => flit.wf
  | .swap _ _ flit => flit.wf
  | .swapAck _ _ flit => flit.wf
  | .swapRefuse _ _ flit => flit.wf
  | .dToIReceive _ _ rx => rx.wf
  | .segmentTrainingComplete _ _ res => res.reqs.all (fun r => decide (r.2.length = 5))
  | .flitLost _ _ _ _ line => decide (line.length = 1153)
  | .driveCommandComplete _ what => what.wf
  | .preload o _ seq count => o.wf && decide (seq < 2 ^ 64) && decide (count < 2 ^ 32)
  | .splRelease o _ seq => o.wf && decide (seq < 2 ^ 64)
  | .storeRelease o _ seq => o.wf && decide (seq < 2 ^ 64)
  | .expectChunk _ _ flit => flit.wf
  | .upload _ _ flit => flit.wf
  | .captureRelease _ _ flit => flit.wf
  | .statusReq _ _ flit => flit.wf
  | .faultAck o _ => o.wf
  | .faultRecordPop o _ => o.wf
  | .tempSample _ readings => decide (readings.length = 16)
  | .clockSwitchRequest o _ => o.wf
  | .resetDevice _ o _ => o.wf
  | .resetGondola _ o _ => o.wf
  | .resetPath _ o _ => o.wf
  | .resetDomain _ o _ => o.wf
  | .stageAppend o _ _ _ _ => o.wf
  | .stageClear o _ => o.wf
  | .registerWrite o _ _ => o.wf
  | .wideRegisterRead o _ => o.wf
  | .logRead o _ => o.wf
  | .imageUpdateStart _ o _ => o.wf
  | .imageData _ _ msg _ _ => msg.wf
  | .keyLoad o _ => o.wf
  | .keyGenerate o _ => o.wf
  | .keyBind o _ _ => o.wf
  | .keyUnbind o _ => o.wf
  | .keyClear o _ => o.wf
  | .envMemWrite _ _ words => decide (words.length = 8)
  | .mailboxFlit _ _ flit => flit.wf
  | .regRead _ _ msg => msg.wf
  | .regWrite _ _ msg => msg.wf
  | .clockSwitch _ _ msg => msg.wf
  | .hbmRetire _ _ msg => msg.wf
  | .version _ _ msg => msg.wf
  | .patchChunk _ _ msg => msg.wf
  | .patchCommit _ _ msg => msg.wf
  | .patchClear _ _ msg => msg.wf
  | .gonEcc err => err.mem.wf
  | .dbgBadFrame _ unit lows => decide (160 ≤ unit) && decide (unit ≤ 4000) && lows.all (fun l => decide (20 ≤ l) && decide (l ≤ 80000))
  | .watchdogRestart o _ => o.wf
  | .lockAcquire _ o _ => o.wf
  | .lockRelease o _ _ => o.wf
  | .memWrite _ _ _ words => decide (words.length = 8)
  | .gmemWrite _ _ _ words => decide (words.length = 8)
  | .storeLinkUp port drives => drives.all (fun d => d.port == port)
  | .flitMalformed _ _ flit => flit.wf
  | .schedCtrlFlit _ _ flit => flit.wf
  | .powerOnReset .. | .refclkCountComplete .. | .hbmTrainingComplete .. | .firmwareStart .. | .beatFrame ..
  | .localBeatEdge .. | .beatLoss .. | .schedFire .. | .anchorMatch .. | .anchorMiss .. | .txShort .. | .txShortRetest ..
  | .receiverDetection .. | .rxLos .. | .cdrUnlock .. | .berIntervalEnd .. | .dspError .. | .pllUnlock ..
  | .clockMonitor .. | .quadConfigEcc .. | .laneDozeEntry .. | .laneDozeExit .. | .mooredExitComplete .. | .wskPoint ..
  | .wskRaster .. | .wskMonitor .. | .wskIdle .. | .marginingCommand .. | .adv .. | .conf .. | .hold .. | .holdTimeout ..
  | .negotiationEnd .. | .partnerClassifyTimeout .. | .trainingFrame .. | .precode .. | .precodeAck .. | .precodeStart ..
  | .testStart .. | .prbsTestEnd .. | .testResult .. | .offer .. | .accept .. | .decline .. | .done ..
  | .ladderStepTimeout .. | .rateChangeIdleEnd .. | .tsOrderedSet .. | .eqEvaluationEnd .. | .electricalIdleEntry ..
  | .electricalIdleExit .. | .skpOrderedSet .. | .linkDown .. | .anPage .. | .laneDrop ..
  | .routeTagMismatch .. | .drainEnd .. | .phase2Start .. | .flitTxBoundary .. | .ctrlRepeat ..
  | .spareTimeout .. | .linkSilence .. | .ackTimer .. | .gapTimer .. | .replayTimeout .. | .echoTimer .. | .packTimeout ..
  | .playoutSlot .. | .slip .. | .sealTimeout .. | .rowTimeout .. | .serviceSlot .. | .hbmErrorWindow .. | .selfRefreshFail ..
  | .hbmTempHigh .. | .hbmControllerEcc .. | .journalCommit .. | .journalCommitComplete .. | .snapshot ..
  | .storeFlushTimeout .. | .driveCmdTimeout .. | .driveRemoved .. | .driveInserted .. | .smartPoll .. | .storePortEvent ..
  | .durableLag .. | .journalStore .. | .verdictFormed .. | .verdictEccError .. | .trainSlot .. | .trainRoundStart ..
  | .trainSlotSend .. | .masterSilent .. | .peerAbsent .. | .graceExpiry .. | .safeStateExit .. | .fatalFlushEnd ..
  | .refclkLoss .. | .coreClock .. | .d2dCorrected .. | .d2dUncorrected .. | .d2dLinkLoss .. | .datapathConfigEcc ..
  | .datapathParity .. | .spoolEcc | .logEcc | .ripcordEcc | .ripcordMismatch | .classCopyCompare .. | .ripcordSelftest ..
  | .envIntegrity .. | .supplyLow .. | .supplyHigh .. | .pinReadback .. | .beatLine | .trainLine | .avsLoop ..
  | .muxHang .. | .domainResetRelease .. | .deviceResetEnd .. | .dbgRstNThreshold .. | .stagePathSwitch ..
  | .stageHeldRelease .. | .stageHeldRetry .. | .imageUpdateTimeout .. | .autoRekey .. | .envMemRead .. | .mailboxPost ..
  | .mailboxPop .. | .gonPatch | .watchdogExpiry .. | .quietDetect .. | .lockTimeout .. | .mgmtAddr .. | .mgmtWrite ..
  | .mgmtRead .. | .mgmtStatus .. | .rlen .. | .alertResponse | .entdaa .. | .setdasa .. | .rstdaa | .enec | .disec
  | .getpid | .getbcr | .getdcr | .getstatus | .mgmtLine .. | .ibiRepeat .. | .ident .. | .challenge .. | .respond ..
  | .endSession .. | .dbgRegRead .. | .dbgRegWrite .. | .memRead .. | .gmemRead .. | .dbgHalt .. | .dbgResume ..
  | .dbgStep .. | .dbgHaltOnStart .. | .coreRead .. | .coreWrite .. | .bkptEnable .. | .bkptDisable .. | .breakpointHit ..
  | .dbgFrameAbandon .. | .dbgCommandTimeout | .challengeVoid .. | .lockoutEnd .. | .dbgSessionIdle .. | .cdrLock ..
  | .rxLosEnd .. | .blockLockLoss .. | .blockLockAcquired .. | .quadPllRelock .. | .supplyLowEnd .. | .lineBackInRange ..
  | .mgmtLinesHigh .. | .hbmTempHighEnd .. | .linkActive .. | .trainingTimeout .. | .mgmtBadTransfer
  | .unsupportedCcc .. | .coreTimer .. | .fatalPortTimeout .. => true

end Sys2Proof
end

