-- ==== Sys2Proof/Laws/Codec.lean ====
section
/-! SUPPORT. The codes read back what they write: bits, bytes, levels and codewords (R188, R189); and what a receiver reads of a flit that reaches it as it was sent: its header and its payload (R188-R191). -/

namespace Sys2Proof.Machine

/-! ### Bits and bytes -/

@[simp] theorem bitsOf_length (n v : Nat) : (bitsOf n v).length = n := by
  induction n with
  | zero => rfl
  | succ n ih => simp [bitsOf, ih]

@[simp] theorem bytesOf_length (n v : Nat) : (bytesOf n v).length = n := by
  induction n with
  | zero => rfl
  | succ n ih => simp [bytesOf, ih]

/-- The value of a list of bits grows by its last bit. -/
theorem ofBits_append (a b : List Bool) : ofBits (a ++ b) = ofBits a * 2 ^ b.length + ofBits b := by
  have key (l : List Bool) (v : Nat) :
      l.foldl (fun a b => 2 * a + (if b then 1 else 0)) v = v * 2 ^ l.length + ofBits l := by
    induction l generalizing v with
    | nil => simp [ofBits]
    | cons x l ih => simp only [List.foldl_cons, ofBits, List.length_cons]; rw [ih, ih]; grind
  simp only [ofBits, List.foldl_append]
  exact key b _

theorem ofBytes_append (a b : List Byte) : ofBytes (a ++ b) = ofBytes a * 256 ^ b.length + ofBytes b := by
  have key (l : List Byte) (v : Nat) :
      l.foldl (fun a b => 256 * a + b.toNat) v = v * 256 ^ l.length + ofBytes l := by
    induction l generalizing v with
    | nil => simp [ofBytes]
    | cons x l ih => simp only [List.foldl_cons, ofBytes, List.length_cons]; rw [ih, ih]; grind
  simp only [ofBytes, List.foldl_append]
  exact key b _

theorem ofBits_bitsOf (n v : Nat) : ofBits (bitsOf n v) = v % 2 ^ n := by
  induction n with
  | zero => simp [bitsOf, ofBits, Nat.mod_one]
  | succ n ih =>
    have h := ofBits_append [Nat.testBit v n] (bitsOf n v)
    simp only [List.singleton_append, bitsOf_length] at h
    have e : ofBits [Nat.testBit v n] = v / 2 ^ n % 2 := by
      simp only [ofBits, List.foldl_cons, List.foldl_nil, Nat.testBit_eq_decide_div_mod_eq]
      by_cases h : v / 2 ^ n % 2 = 1
      · simp [h]
      · have : v / 2 ^ n % 2 = 0 := by omega
        simp [this]
    rw [bitsOf, h, ih, e, Nat.pow_succ, Nat.mod_mul]
    grind

theorem ofBytes_bytesOf (n v : Nat) : ofBytes (bytesOf n v) = v % 256 ^ n := by
  induction n with
  | zero => simp [bytesOf, ofBytes, Nat.mod_one]
  | succ n ih =>
    have h := ofBytes_append [BitVec.ofNat 8 (v / 256 ^ n)] (bytesOf n v)
    simp only [List.singleton_append, bytesOf_length] at h
    have e : ofBytes [BitVec.ofNat 8 (v / 256 ^ n)] = v / 256 ^ n % 256 := by simp [ofBytes]
    rw [bytesOf, h, ih, e, Nat.pow_succ, Nat.mod_mul]
    grind

/-- Packing the bits of a list of bytes gives the bytes. -/
theorem packBits_bits (w : List Byte) : packBits w.length (w.flatMap (fun b => bitsOf 8 b.toNat)) = w := by
  induction w with
  | nil => rfl
  | cons b w ih =>
    have hb : fit 8 false (bitsOf 8 b.toNat ++ w.flatMap (fun b => bitsOf 8 b.toNat)) = bitsOf 8 b.toNat := by
      simp [fit]
    have hv : BitVec.ofNat 8 (ofBits (bitsOf 8 b.toNat)) = b := by
      rw [ofBits_bitsOf, Nat.mod_eq_of_lt b.isLt, BitVec.ofNat_toNat, BitVec.setWidth_eq]
    simp only [List.length_cons, List.flatMap_cons, packBits, hb, hv]
    rw [List.drop_left' (by simp), ih]

/-- The levels of pairs of bits give the bits. -/
theorem bitsOfLevels_gray (bs : List Bool) (h : bs.length % 2 = 0) : bitsOfLevels true (grayLevels bs) = bs := by
  match bs with
  | [] => rfl
  | [_] => simp at h
  | b1 :: b0 :: t =>
    have ht : t.length % 2 = 0 := by simp at h; omega
    have ih := bitsOfLevels_gray t ht
    simp only [bitsOfLevels] at ih ⊢
    cases b1 <;> cases b0 <;> simp_all [grayLevels, grayLevel, grayBits]

@[simp] theorem fit_length {α : Type} (n : Nat) (d : α) (l : List α) : (fit n d l).length = n := by
  simp [fit]; omega

theorem grayLevels_length (bs : List Bool) : (grayLevels bs).length = bs.length / 2 := by
  match bs with
  | [] => rfl
  | [_] => simp [grayLevels]
  | b1 :: b0 :: t =>
    have := grayLevels_length t
    simp only [grayLevels, List.length_cons]
    omega

/-! ### The flit -/

theorem interleave_everyOther {α : Type} (c : List α) : interleave (everyOther true c) (everyOther false c) = c := by
  match c with
  | [] => rfl
  | [_] => rfl
  | x :: y :: t => simp [everyOther, interleave, interleave_everyOther t]

theorem everyOther_interleave {α : Type} (a b : List α) (h : a.length = b.length) :
    everyOther true (interleave a b) = a ∧ everyOther false (interleave a b) = b := by
  induction a generalizing b with
  | nil => cases b <;> simp_all [interleave, everyOther]
  | cons x a ih =>
    cases b with
    | nil => simp at h
    | cons y b => simpa [interleave, everyOther] using ih b (by simpa using h)

theorem everyOther_length {α : Type} (c : List α) :
    (everyOther true c).length = (c.length + 1) / 2 ∧ (everyOther false c).length = c.length / 2 := by
  match c with
  | [] => simp [everyOther]
  | [_] => simp [everyOther]
  | x :: y :: t =>
    have := everyOther_length t
    simp only [everyOther, List.length_cons]
    omega

@[simp] theorem rsParity_length (data : List Byte) : (rsParity data).length = 8 := by
  have key (l : List Byte) (p : List Nat) (h : p.length = 8) : (l.foldl (fun p d => rsStep p d.toNat) p).length = 8 := by
    induction l generalizing p with
    | nil => exact h
    | cons d l ih => exact ih _ (by simp [rsStep])
  simp [rsParity, key]

/-- A codeword that reached the receiver as it was sent decodes to its data (R189). -/
theorem rsDecode_sent (data : List Byte) (h : data.length = 136) : rsDecode (data ++ rsParity data) = some (data, 0) := by
  simp [rsDecode, List.take_left' h, List.drop_left' h]

/-- A list of bits is a number below 2 to its length. -/
theorem ofBits_lt (l : List Bool) : ofBits l < 2 ^ l.length := by
  induction l with
  | nil => simp [ofBits]
  | cons b l ih =>
    have := ofBits_append [b] l
    simp only [List.singleton_append] at this
    rw [this, List.length_cons, Nat.pow_succ]
    cases b <;> simp [ofBits] at * <;> omega

theorem crc32c_lt (l : List Byte) : crc32c l < 256 ^ 4 := by
  unfold crc32c reflect
  exact Nat.xor_lt_two_pow (n := 32) (Nat.lt_of_lt_of_eq (ofBits_lt _) (by simp)) (by decide)

/-- The 288 wire bytes of 272 content bytes (R189). -/
def codeWire (c : List Byte) : List Byte := c ++ interleave (rsParity (everyOther true c)) (rsParity (everyOther false c))

theorem codeWire_length (c : List Byte) : (codeWire c).length = c.length + 16 := by
  have key (a b : List Byte) : (interleave a b).length = a.length + b.length := by
    induction a generalizing b with
    | nil => cases b <;> simp [interleave]
    | cons x a ih => cases b <;> simp [interleave, ih] <;> omega
  simp [codeWire, key]

/-- What is read of wire bytes that reached the receiver as they were sent: all rests with the CRC (R191). -/
theorem flitRead_code (c : List Byte) (hc : c.length = 272) :
    flitRead (codeWire c) = if crc32c (c.take 268) = ofBytes (c.drop 268) then
      .got (BitVec.ofNat 96 (ofBytes (c.take 12))) ((c.drop 12).take 256) 0 else .lost true := by
  have hl := everyOther_length c
  rw [hc] at hl
  have hi := everyOther_interleave (rsParity (everyOther true c)) (rsParity (everyOther false c)) (by simp)
  simp only [flitRead, codeWire, List.take_left' hc, List.drop_left' hc, hi.1, hi.2, rsDecode_sent _ hl.1, rsDecode_sent _ hl.2,
    interleave_everyOther]

theorem flitContent_length (hw : BitVec 96) (pl : List Byte) : (flitContent hw pl).length = 272 := by simp [flitContent]

/-- A flit that reached the receiver as it was sent is read with its header and payload (R188-R191). -/
theorem flitRead_sent (hw : BitVec 96) (pl : List Byte) (h : pl.length = 256) : flitRead (flitWire hw pl) = .got hw pl 0 := by
  have hp : fit 256 0 pl = pl := by simp [fit, h, List.take_of_length_le]
  have h12 : (bytesOf 12 hw.toNat).length = 12 := by simp
  have h268 : (bytesOf 12 hw.toNat ++ pl).length = 268 := by simp [h]
  have hh : BitVec.ofNat 96 (ofBytes (bytesOf 12 hw.toNat)) = hw := by
    rw [ofBytes_bytesOf, Nat.mod_eq_of_lt (by have := hw.isLt; omega), BitVec.ofNat_toNat, BitVec.setWidth_eq]
  rw [show flitWire hw pl = codeWire (flitContent hw pl) from rfl, flitRead_code _ (flitContent_length hw pl)]
  simp only [flitContent, hp, List.take_left' h268, List.drop_left' h268, ofBytes_bytesOf, Nat.mod_eq_of_lt (crc32c_lt _), if_true]
  rw [List.append_assoc, List.take_left' h12, List.drop_left' h12, hh, List.take_left' h]

/-! ### The flit on a lane -/

/-- The flit of 288 wire bytes as it reaches position `pos` of a port, its levels as sent. -/
def wireFlit (pos : Fin 18) (w : List Byte) : RxFlit :=
  ⟨pos, 0, 0, (grayLevels (w.flatMap (fun b => bitsOf 8 b.toNat))).map (fun v => Fin.ofNat 4 v)⟩

@[simp] theorem wireFlit_pos (pos : Fin 18) (w : List Byte) : (wireFlit pos w).pos = pos := rfl

theorem grayLevels_small (bs : List Bool) : (grayLevels bs).map (fun v => (Fin.ofNat 4 v).val) = grayLevels bs := by
  match bs with
  | [] => rfl
  | [_] => rfl
  | b1 :: b0 :: t =>
    have ih := grayLevels_small t
    cases b1 <;> cases b0 <;> simp_all [grayLevels, grayLevel]

theorem wireBits_length (w : List Byte) : (w.flatMap (fun b => bitsOf 8 b.toNat)).length = 8 * w.length := by
  induction w with
  | nil => rfl
  | cons b w ih => simp only [List.flatMap_cons, List.length_append, ih, bitsOf_length, List.length_cons]; omega

theorem wireFlit_wf (pos : Fin 18) (w : List Byte) (h : w.length = 288) : (wireFlit pos w).wf = true := by
  simp only [RxFlit.wf, wireFlit, List.length_map, grayLevels_length, wireBits_length, h]
  decide

/-- A lane of normal polarity without precoding hears the wire bytes (R73, R92). -/
theorem readFlit_wire (s : State) (ip : Nat) (pos : Fin 18) (w : List Byte) (h : w.length = 288)
    (hi : (s.laneAt (s.ipLane ip pos.val)).rxInv = false) (hp : (s.laneAt (s.ipLane ip pos.val)).precRx = false) :
    s.readFlit ip (wireFlit pos w) = flitRead w := by
  have e := bitsOfLevels_gray (w.flatMap (fun b => bitsOf 8 b.toNat)) (by rw [wireBits_length]; omega)
  have p := packBits_bits w
  rw [h] at p
  simp only [State.readFlit, State.flitBytes, wireFlit, hi, hp, Bool.false_eq_true, if_false, List.map_map, Function.comp_def,
    grayLevels_small, e, p]

/-- The flit of a header and a payload, as it reaches position `pos` of a port. -/
def sentFlit (pos : Fin 18) (hw : BitVec 96) (pl : List Byte) : RxFlit := wireFlit pos (flitWire hw pl)

theorem flitWire_length (hw : BitVec 96) (pl : List Byte) : (flitWire hw pl).length = 288 := by
  rw [show flitWire hw pl = codeWire (flitContent hw pl) from rfl, codeWire_length, flitContent_length]

theorem sentFlit_wf (pos : Fin 18) (hw : BitVec 96) (pl : List Byte) : (sentFlit pos hw pl).wf = true :=
  wireFlit_wf pos _ (flitWire_length hw pl)

/-- What the lane reads of a flit that reaches it as it was sent (R191). -/
theorem readFlit_sent (s : State) (ip : Nat) (pos : Fin 18) (hw : BitVec 96) (pl : List Byte) (h : pl.length = 256)
    (hi : (s.laneAt (s.ipLane ip pos.val)).rxInv = false) (hp : (s.laneAt (s.ipLane ip pos.val)).precRx = false) :
    s.readFlit ip (sentFlit pos hw pl) = .got hw pl 0 := by
  rw [sentFlit, readFlit_wire s ip pos _ (flitWire_length hw pl) hi hp, flitRead_sent hw pl h]

/-- The same with the fields of the header read (R191, R192). -/
theorem flitHead_sent (s : State) (ip : Nat) (pos : Fin 18) (hw : BitVec 96) (pl : List Byte) (h : pl.length = 256)
    (hi : (s.laneAt (s.ipLane ip pos.val)).rxInv = false) (hp : (s.laneAt (s.ipLane ip pos.val)).precRx = false) :
    s.flitHead ip (sentFlit pos hw pl) = some (hdrOf hw, pl) := by
  simp only [State.flitHead, readFlit_sent s ip pos hw pl h hi hp]

/-- Where the lane hears a flit as it was sent (R197). -/
theorem hearsFlit_sent (s : State) (ip : Nat) (pos : Fin 18) (hw : BitVec 96) (pl : List Byte) (n : Nat) (ok : Hdr → List Byte → Bool)
    (h : pl.length = 256) (hi : (s.laneAt (s.ipLane ip pos.val)).rxInv = false)
    (hp : (s.laneAt (s.ipLane ip pos.val)).precRx = false) (hs : s.still = false ∧ s.linkPath ip = some n ∧ s.hears ip pos.val = true)
    (ho : s.flitOk n false (hdrOf hw) pl = true ∧ ok (hdrOf hw) pl = true)
    (hl : (s.portAt ip).link.cells = [] ∧ (s.portAt ip).link.got = [] ∧ (s.portAt ip).link.refuse = [] ∧ s.pwr.fatalDone = false) :
    s.hearsFlit ip (sentFlit pos hw pl) n ok = true := by
  have hf := flitHead_sent s ip pos hw pl h hi hp
  have hpos : (sentFlit pos hw pl).pos = pos := rfl
  simp [State.hearsFlit, hf, hpos, hs, ho, hl]

end Sys2Proof.Machine
end

