-- ==== Sys2Proof/Laws/Tbl.lean ====
section
/-! SUPPORT. What reading a sparse table after a write gives, and that every operation keeps the canonical form. -/

namespace Sys2Proof.Machine

variable {α : Type}

theorem Tbl.find_erase (d : α) (k j : Nat) (l : List (Nat × α)) :
    Tbl.find d j (Tbl.erase k l) = if j = k then d else Tbl.find d j l := by
  induction l with
  | nil => simp [Tbl.erase, Tbl.find]
  | cons e t ih =>
    obtain ⟨i, v⟩ := e
    by_cases h : i = k <;> by_cases hj : i = j <;> simp_all [Tbl.erase, Tbl.find]

theorem Tbl.find_insert (d : α) (k j : Nat) (v : α) (l : List (Nat × α)) :
    Tbl.find d j (Tbl.insert k v l) = if j = k then v else Tbl.find d j l := by
  induction l with
  | nil =>
    by_cases hj : j = k
    · simp [Tbl.insert, Tbl.find, hj]
    · have : ¬k = j := fun h => hj h.symm
      simp [Tbl.insert, Tbl.find, hj, this]
  | cons e t ih =>
    obtain ⟨i, w⟩ := e
    by_cases hlt : k < i
    · by_cases hj : j = k
      · simp [Tbl.insert, hlt, Tbl.find, hj]
      · have : ¬k = j := fun h => hj h.symm
        simp [Tbl.insert, hlt, Tbl.find, hj, this]
    · by_cases he : i = k
      · subst he
        by_cases hj : j = i
        · simp [Tbl.insert, Tbl.find, hj]
        · have : ¬i = j := fun h => hj h.symm
          simp [Tbl.insert, Tbl.find, hj, this]
      · by_cases hj : i = j
        · subst hj
          simp [Tbl.insert, hlt, he, Tbl.find]
        · simp [Tbl.insert, hlt, he, Tbl.find, hj, ih]

/-- Reading a key after a write: the value at the written key, what stood before at every other key. -/
theorem Tbl.get_set [DecidableEq α] (t : Tbl α) (d : α) (k j : Nat) (v : α) :
    (t.set d k v).get d j = if j = k then v else t.get d j := by
  by_cases h : v = d
  · simp only [Tbl.set, Tbl.get, h, if_true, Tbl.find_erase]
  · simp only [Tbl.set, Tbl.get, h, if_false, Tbl.find_insert]

@[simp] theorem Tbl.get_set_self [DecidableEq α] (t : Tbl α) (d : α) (k : Nat) (v : α) : (t.set d k v).get d k = v := by
  simp [Tbl.get_set]

theorem Tbl.get_set_ne [DecidableEq α] (t : Tbl α) (d : α) {k j : Nat} (v : α) (h : j ≠ k) :
    (t.set d k v).get d j = t.get d j := by
  simp [Tbl.get_set, h]

/-! ### The canonical form -/

theorem Tbl.wfFrom_weaken [DecidableEq α] (d : Nat → α) {lo lo' : Option Nat} (l : List (Nat × α))
    (h : ∀ b, lo' = some b → ∃ a, lo = some a ∧ b ≤ a) (w : Tbl.wfFrom d lo l = true) : Tbl.wfFrom d lo' l = true := by
  cases l with
  | nil => rfl
  | cons e t =>
    simp only [Tbl.wfFrom, Bool.and_eq_true] at w ⊢
    refine ⟨⟨?_, w.1.2⟩, w.2⟩
    cases hb : lo' with
    | none => rfl
    | some b =>
      obtain ⟨a, ha, hab⟩ := h b hb
      have := w.1.1
      rw [ha] at this
      simp only [decide_eq_true_eq] at this ⊢
      omega

theorem Tbl.wfFrom_erase [DecidableEq α] (d : Nat → α) (k : Nat) (l : List (Nat × α)) :
    ∀ lo, Tbl.wfFrom d lo l = true → Tbl.wfFrom d lo (Tbl.erase k l) = true := by
  induction l with
  | nil => intro lo _; rfl
  | cons e t ih =>
    intro lo w
    obtain ⟨i, v⟩ := e
    simp only [Tbl.wfFrom, Bool.and_eq_true] at w
    by_cases h : i = k
    · simp only [Tbl.erase, h, if_true]
      apply ih
      apply Tbl.wfFrom_weaken d t _ w.2
      intro b hb
      have := w.1.1
      rw [hb] at this
      simp only [decide_eq_true_eq] at this
      exact ⟨i, rfl, by omega⟩
    · simp only [Tbl.erase, h, if_false, Tbl.wfFrom, Bool.and_eq_true]
      exact ⟨w.1, ih _ w.2⟩

theorem Tbl.wfFrom_insert [DecidableEq α] (d : Nat → α) (k : Nat) (v : α) (hv : v ≠ d k) (l : List (Nat × α)) :
    ∀ lo, (∀ b, lo = some b → b < k) → Tbl.wfFrom d lo l = true → Tbl.wfFrom d lo (Tbl.insert k v l) = true := by
  induction l with
  | nil =>
    intro lo hlo _
    cases lo with
    | none => simp [Tbl.insert, Tbl.wfFrom, hv]
    | some b => simp [Tbl.insert, Tbl.wfFrom, hv, hlo b rfl]
  | cons e t ih =>
    intro lo hlo w
    obtain ⟨i, x⟩ := e
    simp only [Tbl.wfFrom, Bool.and_eq_true] at w
    by_cases hlt : k < i
    · simp only [Tbl.insert, hlt, if_true, Tbl.wfFrom, Bool.and_eq_true]
      refine ⟨⟨?_, by simp [hv]⟩, ⟨by simp, w.1.2⟩, w.2⟩
      cases lo with
      | none => rfl
      | some b => simp [hlo b rfl]
    · by_cases he : i = k
      · subst he
        simp only [Tbl.insert, Nat.lt_irrefl, if_false, if_true, Tbl.wfFrom, Bool.and_eq_true]
        refine ⟨⟨?_, by simp [hv]⟩, w.2⟩
        cases lo with
        | none => rfl
        | some b => simp [hlo b rfl]
      · simp only [Tbl.insert, hlt, he, if_false, Tbl.wfFrom, Bool.and_eq_true]
        refine ⟨w.1, ih _ ?_ w.2⟩
        intro b hb
        cases hb
        omega

/-- A write keeps the canonical form of a table whose unlisted keys all read as `d`. -/
theorem Tbl.set_wf [DecidableEq α] (t : Tbl α) (d : α) (k : Nat) (v : α) (h : t.wf (fun _ => d) = true) :
    (t.set d k v).wf (fun _ => d) = true := by
  by_cases hv : v = d
  · simp only [Tbl.set, hv, if_true, Tbl.wf]
    exact Tbl.wfFrom_erase _ k _ none h
  · simp only [Tbl.set, hv, if_false, Tbl.wf]
    exact Tbl.wfFrom_insert _ k v hv _ none (by simp) h

theorem Tbl.find_eq_of_wfFrom [DecidableEq α] (d : α) (l : List (Nat × α)) :
    ∀ lo j, Tbl.wfFrom (fun _ => d) (some lo) l = true → j ≤ lo → Tbl.find d j l = d := by
  induction l with
  | nil => intros; rfl
  | cons e t ih =>
    intro lo j w hj
    obtain ⟨i, v⟩ := e
    simp only [Tbl.wfFrom, Bool.and_eq_true, decide_eq_true_eq] at w
    have : ¬i = j := by omega
    simp only [Tbl.find, this, if_false]
    exact ih i j w.2 (by omega)

end Sys2Proof.Machine
end

