-- ==== Sys2Proof/Laws/State.lean ====
section
/-! SUPPORT. What each change of one part of the state leaves of every other part, and what an element of a table reads as after a
change of an element. -/

namespace Sys2Proof.Machine

variable (s : State)

/-! ### modLane -/
@[simp] theorem State.modLane_pending (l : Nat) (f : LaneSt → LaneSt) : (s.modLane l f).pending = s.pending := rfl
@[simp] theorem State.modLane_now (l : Nat) (f : LaneSt → LaneSt) : (s.modLane l f).now = s.now := rfl
@[simp] theorem State.modLane_freeCtr (l : Nat) (f : LaneSt → LaneSt) : (s.modLane l f).freeCtr = s.freeCtr := rfl
@[simp] theorem State.modLane_pwr (l : Nat) (f : LaneSt → LaneSt) : (s.modLane l f).pwr = s.pwr := rfl
@[simp] theorem State.modLane_dom (l : Nat) (f : LaneSt → LaneSt) : (s.modLane l f).dom = s.dom := rfl
@[simp] theorem State.modLane_regs (l : Nat) (f : LaneSt → LaneSt) : (s.modLane l f).regs = s.regs := rfl
@[simp] theorem State.modLane_beat (l : Nat) (f : LaneSt → LaneSt) : (s.modLane l f).beat = s.beat := rfl
@[simp] theorem State.modLane_sched (l : Nat) (f : LaneSt → LaneSt) : (s.modLane l f).sched = s.sched := rfl
@[simp] theorem State.modLane_log (l : Nat) (f : LaneSt → LaneSt) : (s.modLane l f).log = s.log := rfl
@[simp] theorem State.modLane_flt (l : Nat) (f : LaneSt → LaneSt) : (s.modLane l f).flt = s.flt := rfl
@[simp] theorem State.modLane_trn (l : Nat) (f : LaneSt → LaneSt) : (s.modLane l f).trn = s.trn := rfl
@[simp] theorem State.modLane_stg (l : Nat) (f : LaneSt → LaneSt) : (s.modLane l f).stg = s.stg := rfl
@[simp] theorem State.modLane_ltr (l : Nat) (f : LaneSt → LaneSt) : (s.modLane l f).ltr = s.ltr := rfl
@[simp] theorem State.modLane_quad (l : Nat) (f : LaneSt → LaneSt) : (s.modLane l f).quad = s.quad := rfl
@[simp] theorem State.modLane_die (l : Nat) (f : LaneSt → LaneSt) : (s.modLane l f).die = s.die := rfl
@[simp] theorem State.modLane_port (l : Nat) (f : LaneSt → LaneSt) : (s.modLane l f).port = s.port := rfl
@[simp] theorem State.modLane_path (l : Nat) (f : LaneSt → LaneSt) : (s.modLane l f).path = s.path := rfl
@[simp] theorem State.modLane_vrd (l : Nat) (f : LaneSt → LaneSt) : (s.modLane l f).vrd = s.vrd := rfl
@[simp] theorem State.modLane_reel (l : Nat) (f : LaneSt → LaneSt) : (s.modLane l f).reel = s.reel := rfl
@[simp] theorem State.modLane_spl (l : Nat) (f : LaneSt → LaneSt) : (s.modLane l f).spl = s.spl := rfl
@[simp] theorem State.modLane_sto (l : Nat) (f : LaneSt → LaneSt) : (s.modLane l f).sto = s.sto := rfl
@[simp] theorem State.modLane_env (l : Nat) (f : LaneSt → LaneSt) : (s.modLane l f).env = s.env := rfl
@[simp] theorem State.modLane_gon (l : Nat) (f : LaneSt → LaneSt) : (s.modLane l f).gon = s.gon := rfl
@[simp] theorem State.modLane_dbg (l : Nat) (f : LaneSt → LaneSt) : (s.modLane l f).dbg = s.dbg := rfl

/-! ### modLtr -/
@[simp] theorem State.modLtr_pending (l : Nat) (f : LaneTr → LaneTr) : (s.modLtr l f).pending = s.pending := rfl
@[simp] theorem State.modLtr_now (l : Nat) (f : LaneTr → LaneTr) : (s.modLtr l f).now = s.now := rfl
@[simp] theorem State.modLtr_freeCtr (l : Nat) (f : LaneTr → LaneTr) : (s.modLtr l f).freeCtr = s.freeCtr := rfl
@[simp] theorem State.modLtr_pwr (l : Nat) (f : LaneTr → LaneTr) : (s.modLtr l f).pwr = s.pwr := rfl
@[simp] theorem State.modLtr_dom (l : Nat) (f : LaneTr → LaneTr) : (s.modLtr l f).dom = s.dom := rfl
@[simp] theorem State.modLtr_regs (l : Nat) (f : LaneTr → LaneTr) : (s.modLtr l f).regs = s.regs := rfl
@[simp] theorem State.modLtr_beat (l : Nat) (f : LaneTr → LaneTr) : (s.modLtr l f).beat = s.beat := rfl
@[simp] theorem State.modLtr_sched (l : Nat) (f : LaneTr → LaneTr) : (s.modLtr l f).sched = s.sched := rfl
@[simp] theorem State.modLtr_log (l : Nat) (f : LaneTr → LaneTr) : (s.modLtr l f).log = s.log := rfl
@[simp] theorem State.modLtr_flt (l : Nat) (f : LaneTr → LaneTr) : (s.modLtr l f).flt = s.flt := rfl
@[simp] theorem State.modLtr_trn (l : Nat) (f : LaneTr → LaneTr) : (s.modLtr l f).trn = s.trn := rfl
@[simp] theorem State.modLtr_stg (l : Nat) (f : LaneTr → LaneTr) : (s.modLtr l f).stg = s.stg := rfl
@[simp] theorem State.modLtr_lane (l : Nat) (f : LaneTr → LaneTr) : (s.modLtr l f).lane = s.lane := rfl
@[simp] theorem State.modLtr_quad (l : Nat) (f : LaneTr → LaneTr) : (s.modLtr l f).quad = s.quad := rfl
@[simp] theorem State.modLtr_die (l : Nat) (f : LaneTr → LaneTr) : (s.modLtr l f).die = s.die := rfl
@[simp] theorem State.modLtr_port (l : Nat) (f : LaneTr → LaneTr) : (s.modLtr l f).port = s.port := rfl
@[simp] theorem State.modLtr_path (l : Nat) (f : LaneTr → LaneTr) : (s.modLtr l f).path = s.path := rfl
@[simp] theorem State.modLtr_vrd (l : Nat) (f : LaneTr → LaneTr) : (s.modLtr l f).vrd = s.vrd := rfl
@[simp] theorem State.modLtr_reel (l : Nat) (f : LaneTr → LaneTr) : (s.modLtr l f).reel = s.reel := rfl
@[simp] theorem State.modLtr_spl (l : Nat) (f : LaneTr → LaneTr) : (s.modLtr l f).spl = s.spl := rfl
@[simp] theorem State.modLtr_sto (l : Nat) (f : LaneTr → LaneTr) : (s.modLtr l f).sto = s.sto := rfl
@[simp] theorem State.modLtr_env (l : Nat) (f : LaneTr → LaneTr) : (s.modLtr l f).env = s.env := rfl
@[simp] theorem State.modLtr_gon (l : Nat) (f : LaneTr → LaneTr) : (s.modLtr l f).gon = s.gon := rfl
@[simp] theorem State.modLtr_dbg (l : Nat) (f : LaneTr → LaneTr) : (s.modLtr l f).dbg = s.dbg := rfl

/-! ### modQuad -/
@[simp] theorem State.modQuad_pending (q : Nat) (f : QuadSt → QuadSt) : (s.modQuad q f).pending = s.pending := rfl
@[simp] theorem State.modQuad_now (q : Nat) (f : QuadSt → QuadSt) : (s.modQuad q f).now = s.now := rfl
@[simp] theorem State.modQuad_freeCtr (q : Nat) (f : QuadSt → QuadSt) : (s.modQuad q f).freeCtr = s.freeCtr := rfl
@[simp] theorem State.modQuad_pwr (q : Nat) (f : QuadSt → QuadSt) : (s.modQuad q f).pwr = s.pwr := rfl
@[simp] theorem State.modQuad_dom (q : Nat) (f : QuadSt → QuadSt) : (s.modQuad q f).dom = s.dom := rfl
@[simp] theorem State.modQuad_regs (q : Nat) (f : QuadSt → QuadSt) : (s.modQuad q f).regs = s.regs := rfl
@[simp] theorem State.modQuad_beat (q : Nat) (f : QuadSt → QuadSt) : (s.modQuad q f).beat = s.beat := rfl
@[simp] theorem State.modQuad_sched (q : Nat) (f : QuadSt → QuadSt) : (s.modQuad q f).sched = s.sched := rfl
@[simp] theorem State.modQuad_log (q : Nat) (f : QuadSt → QuadSt) : (s.modQuad q f).log = s.log := rfl
@[simp] theorem State.modQuad_flt (q : Nat) (f : QuadSt → QuadSt) : (s.modQuad q f).flt = s.flt := rfl
@[simp] theorem State.modQuad_trn (q : Nat) (f : QuadSt → QuadSt) : (s.modQuad q f).trn = s.trn := rfl
@[simp] theorem State.modQuad_stg (q : Nat) (f : QuadSt → QuadSt) : (s.modQuad q f).stg = s.stg := rfl
@[simp] theorem State.modQuad_lane (q : Nat) (f : QuadSt → QuadSt) : (s.modQuad q f).lane = s.lane := rfl
@[simp] theorem State.modQuad_ltr (q : Nat) (f : QuadSt → QuadSt) : (s.modQuad q f).ltr = s.ltr := rfl
@[simp] theorem State.modQuad_die (q : Nat) (f : QuadSt → QuadSt) : (s.modQuad q f).die = s.die := rfl
@[simp] theorem State.modQuad_port (q : Nat) (f : QuadSt → QuadSt) : (s.modQuad q f).port = s.port := rfl
@[simp] theorem State.modQuad_path (q : Nat) (f : QuadSt → QuadSt) : (s.modQuad q f).path = s.path := rfl
@[simp] theorem State.modQuad_vrd (q : Nat) (f : QuadSt → QuadSt) : (s.modQuad q f).vrd = s.vrd := rfl
@[simp] theorem State.modQuad_reel (q : Nat) (f : QuadSt → QuadSt) : (s.modQuad q f).reel = s.reel := rfl
@[simp] theorem State.modQuad_spl (q : Nat) (f : QuadSt → QuadSt) : (s.modQuad q f).spl = s.spl := rfl
@[simp] theorem State.modQuad_sto (q : Nat) (f : QuadSt → QuadSt) : (s.modQuad q f).sto = s.sto := rfl
@[simp] theorem State.modQuad_env (q : Nat) (f : QuadSt → QuadSt) : (s.modQuad q f).env = s.env := rfl
@[simp] theorem State.modQuad_gon (q : Nat) (f : QuadSt → QuadSt) : (s.modQuad q f).gon = s.gon := rfl
@[simp] theorem State.modQuad_dbg (q : Nat) (f : QuadSt → QuadSt) : (s.modQuad q f).dbg = s.dbg := rfl

/-! ### modDie -/
@[simp] theorem State.modDie_pending (j : Nat) (f : DieSt → DieSt) : (s.modDie j f).pending = s.pending := rfl
@[simp] theorem State.modDie_now (j : Nat) (f : DieSt → DieSt) : (s.modDie j f).now = s.now := rfl
@[simp] theorem State.modDie_freeCtr (j : Nat) (f : DieSt → DieSt) : (s.modDie j f).freeCtr = s.freeCtr := rfl
@[simp] theorem State.modDie_pwr (j : Nat) (f : DieSt → DieSt) : (s.modDie j f).pwr = s.pwr := rfl
@[simp] theorem State.modDie_dom (j : Nat) (f : DieSt → DieSt) : (s.modDie j f).dom = s.dom := rfl
@[simp] theorem State.modDie_regs (j : Nat) (f : DieSt → DieSt) : (s.modDie j f).regs = s.regs := rfl
@[simp] theorem State.modDie_beat (j : Nat) (f : DieSt → DieSt) : (s.modDie j f).beat = s.beat := rfl
@[simp] theorem State.modDie_sched (j : Nat) (f : DieSt → DieSt) : (s.modDie j f).sched = s.sched := rfl
@[simp] theorem State.modDie_log (j : Nat) (f : DieSt → DieSt) : (s.modDie j f).log = s.log := rfl
@[simp] theorem State.modDie_flt (j : Nat) (f : DieSt → DieSt) : (s.modDie j f).flt = s.flt := rfl
@[simp] theorem State.modDie_trn (j : Nat) (f : DieSt → DieSt) : (s.modDie j f).trn = s.trn := rfl
@[simp] theorem State.modDie_stg (j : Nat) (f : DieSt → DieSt) : (s.modDie j f).stg = s.stg := rfl
@[simp] theorem State.modDie_lane (j : Nat) (f : DieSt → DieSt) : (s.modDie j f).lane = s.lane := rfl
@[simp] theorem State.modDie_ltr (j : Nat) (f : DieSt → DieSt) : (s.modDie j f).ltr = s.ltr := rfl
@[simp] theorem State.modDie_quad (j : Nat) (f : DieSt → DieSt) : (s.modDie j f).quad = s.quad := rfl
@[simp] theorem State.modDie_port (j : Nat) (f : DieSt → DieSt) : (s.modDie j f).port = s.port := rfl
@[simp] theorem State.modDie_path (j : Nat) (f : DieSt → DieSt) : (s.modDie j f).path = s.path := rfl
@[simp] theorem State.modDie_vrd (j : Nat) (f : DieSt → DieSt) : (s.modDie j f).vrd = s.vrd := rfl
@[simp] theorem State.modDie_reel (j : Nat) (f : DieSt → DieSt) : (s.modDie j f).reel = s.reel := rfl
@[simp] theorem State.modDie_spl (j : Nat) (f : DieSt → DieSt) : (s.modDie j f).spl = s.spl := rfl
@[simp] theorem State.modDie_sto (j : Nat) (f : DieSt → DieSt) : (s.modDie j f).sto = s.sto := rfl
@[simp] theorem State.modDie_env (j : Nat) (f : DieSt → DieSt) : (s.modDie j f).env = s.env := rfl
@[simp] theorem State.modDie_gon (j : Nat) (f : DieSt → DieSt) : (s.modDie j f).gon = s.gon := rfl
@[simp] theorem State.modDie_dbg (j : Nat) (f : DieSt → DieSt) : (s.modDie j f).dbg = s.dbg := rfl

/-! ### modPort -/
@[simp] theorem State.modPort_pending (n : Nat) (f : PortSt → PortSt) : (s.modPort n f).pending = s.pending := rfl
@[simp] theorem State.modPort_now (n : Nat) (f : PortSt → PortSt) : (s.modPort n f).now = s.now := rfl
@[simp] theorem State.modPort_freeCtr (n : Nat) (f : PortSt → PortSt) : (s.modPort n f).freeCtr = s.freeCtr := rfl
@[simp] theorem State.modPort_pwr (n : Nat) (f : PortSt → PortSt) : (s.modPort n f).pwr = s.pwr := rfl
@[simp] theorem State.modPort_dom (n : Nat) (f : PortSt → PortSt) : (s.modPort n f).dom = s.dom := rfl
@[simp] theorem State.modPort_regs (n : Nat) (f : PortSt → PortSt) : (s.modPort n f).regs = s.regs := rfl
@[simp] theorem State.modPort_beat (n : Nat) (f : PortSt → PortSt) : (s.modPort n f).beat = s.beat := rfl
@[simp] theorem State.modPort_sched (n : Nat) (f : PortSt → PortSt) : (s.modPort n f).sched = s.sched := rfl
@[simp] theorem State.modPort_log (n : Nat) (f : PortSt → PortSt) : (s.modPort n f).log = s.log := rfl
@[simp] theorem State.modPort_flt (n : Nat) (f : PortSt → PortSt) : (s.modPort n f).flt = s.flt := rfl
@[simp] theorem State.modPort_trn (n : Nat) (f : PortSt → PortSt) : (s.modPort n f).trn = s.trn := rfl
@[simp] theorem State.modPort_stg (n : Nat) (f : PortSt → PortSt) : (s.modPort n f).stg = s.stg := rfl
@[simp] theorem State.modPort_lane (n : Nat) (f : PortSt → PortSt) : (s.modPort n f).lane = s.lane := rfl
@[simp] theorem State.modPort_ltr (n : Nat) (f : PortSt → PortSt) : (s.modPort n f).ltr = s.ltr := rfl
@[simp] theorem State.modPort_quad (n : Nat) (f : PortSt → PortSt) : (s.modPort n f).quad = s.quad := rfl
@[simp] theorem State.modPort_die (n : Nat) (f : PortSt → PortSt) : (s.modPort n f).die = s.die := rfl
@[simp] theorem State.modPort_path (n : Nat) (f : PortSt → PortSt) : (s.modPort n f).path = s.path := rfl
@[simp] theorem State.modPort_vrd (n : Nat) (f : PortSt → PortSt) : (s.modPort n f).vrd = s.vrd := rfl
@[simp] theorem State.modPort_reel (n : Nat) (f : PortSt → PortSt) : (s.modPort n f).reel = s.reel := rfl
@[simp] theorem State.modPort_spl (n : Nat) (f : PortSt → PortSt) : (s.modPort n f).spl = s.spl := rfl
@[simp] theorem State.modPort_sto (n : Nat) (f : PortSt → PortSt) : (s.modPort n f).sto = s.sto := rfl
@[simp] theorem State.modPort_env (n : Nat) (f : PortSt → PortSt) : (s.modPort n f).env = s.env := rfl
@[simp] theorem State.modPort_gon (n : Nat) (f : PortSt → PortSt) : (s.modPort n f).gon = s.gon := rfl
@[simp] theorem State.modPort_dbg (n : Nat) (f : PortSt → PortSt) : (s.modPort n f).dbg = s.dbg := rfl

/-! ### modLad -/
@[simp] theorem State.modLad_pending (n : Nat) (f : LadderSt → LadderSt) : (s.modLad n f).pending = s.pending := rfl
@[simp] theorem State.modLad_now (n : Nat) (f : LadderSt → LadderSt) : (s.modLad n f).now = s.now := rfl
@[simp] theorem State.modLad_freeCtr (n : Nat) (f : LadderSt → LadderSt) : (s.modLad n f).freeCtr = s.freeCtr := rfl
@[simp] theorem State.modLad_pwr (n : Nat) (f : LadderSt → LadderSt) : (s.modLad n f).pwr = s.pwr := rfl
@[simp] theorem State.modLad_dom (n : Nat) (f : LadderSt → LadderSt) : (s.modLad n f).dom = s.dom := rfl
@[simp] theorem State.modLad_regs (n : Nat) (f : LadderSt → LadderSt) : (s.modLad n f).regs = s.regs := rfl
@[simp] theorem State.modLad_beat (n : Nat) (f : LadderSt → LadderSt) : (s.modLad n f).beat = s.beat := rfl
@[simp] theorem State.modLad_sched (n : Nat) (f : LadderSt → LadderSt) : (s.modLad n f).sched = s.sched := rfl
@[simp] theorem State.modLad_log (n : Nat) (f : LadderSt → LadderSt) : (s.modLad n f).log = s.log := rfl
@[simp] theorem State.modLad_flt (n : Nat) (f : LadderSt → LadderSt) : (s.modLad n f).flt = s.flt := rfl
@[simp] theorem State.modLad_trn (n : Nat) (f : LadderSt → LadderSt) : (s.modLad n f).trn = s.trn := rfl
@[simp] theorem State.modLad_stg (n : Nat) (f : LadderSt → LadderSt) : (s.modLad n f).stg = s.stg := rfl
@[simp] theorem State.modLad_lane (n : Nat) (f : LadderSt → LadderSt) : (s.modLad n f).lane = s.lane := rfl
@[simp] theorem State.modLad_ltr (n : Nat) (f : LadderSt → LadderSt) : (s.modLad n f).ltr = s.ltr := rfl
@[simp] theorem State.modLad_quad (n : Nat) (f : LadderSt → LadderSt) : (s.modLad n f).quad = s.quad := rfl
@[simp] theorem State.modLad_die (n : Nat) (f : LadderSt → LadderSt) : (s.modLad n f).die = s.die := rfl
@[simp] theorem State.modLad_path (n : Nat) (f : LadderSt → LadderSt) : (s.modLad n f).path = s.path := rfl
@[simp] theorem State.modLad_vrd (n : Nat) (f : LadderSt → LadderSt) : (s.modLad n f).vrd = s.vrd := rfl
@[simp] theorem State.modLad_reel (n : Nat) (f : LadderSt → LadderSt) : (s.modLad n f).reel = s.reel := rfl
@[simp] theorem State.modLad_spl (n : Nat) (f : LadderSt → LadderSt) : (s.modLad n f).spl = s.spl := rfl
@[simp] theorem State.modLad_sto (n : Nat) (f : LadderSt → LadderSt) : (s.modLad n f).sto = s.sto := rfl
@[simp] theorem State.modLad_env (n : Nat) (f : LadderSt → LadderSt) : (s.modLad n f).env = s.env := rfl
@[simp] theorem State.modLad_gon (n : Nat) (f : LadderSt → LadderSt) : (s.modLad n f).gon = s.gon := rfl
@[simp] theorem State.modLad_dbg (n : Nat) (f : LadderSt → LadderSt) : (s.modLad n f).dbg = s.dbg := rfl

/-! ### modLink -/
@[simp] theorem State.modLink_pending (n : Nat) (f : LinkSt → LinkSt) : (s.modLink n f).pending = s.pending := rfl
@[simp] theorem State.modLink_now (n : Nat) (f : LinkSt → LinkSt) : (s.modLink n f).now = s.now := rfl
@[simp] theorem State.modLink_freeCtr (n : Nat) (f : LinkSt → LinkSt) : (s.modLink n f).freeCtr = s.freeCtr := rfl
@[simp] theorem State.modLink_pwr (n : Nat) (f : LinkSt → LinkSt) : (s.modLink n f).pwr = s.pwr := rfl
@[simp] theorem State.modLink_dom (n : Nat) (f : LinkSt → LinkSt) : (s.modLink n f).dom = s.dom := rfl
@[simp] theorem State.modLink_regs (n : Nat) (f : LinkSt → LinkSt) : (s.modLink n f).regs = s.regs := rfl
@[simp] theorem State.modLink_beat (n : Nat) (f : LinkSt → LinkSt) : (s.modLink n f).beat = s.beat := rfl
@[simp] theorem State.modLink_sched (n : Nat) (f : LinkSt → LinkSt) : (s.modLink n f).sched = s.sched := rfl
@[simp] theorem State.modLink_log (n : Nat) (f : LinkSt → LinkSt) : (s.modLink n f).log = s.log := rfl
@[simp] theorem State.modLink_flt (n : Nat) (f : LinkSt → LinkSt) : (s.modLink n f).flt = s.flt := rfl
@[simp] theorem State.modLink_trn (n : Nat) (f : LinkSt → LinkSt) : (s.modLink n f).trn = s.trn := rfl
@[simp] theorem State.modLink_stg (n : Nat) (f : LinkSt → LinkSt) : (s.modLink n f).stg = s.stg := rfl
@[simp] theorem State.modLink_lane (n : Nat) (f : LinkSt → LinkSt) : (s.modLink n f).lane = s.lane := rfl
@[simp] theorem State.modLink_ltr (n : Nat) (f : LinkSt → LinkSt) : (s.modLink n f).ltr = s.ltr := rfl
@[simp] theorem State.modLink_quad (n : Nat) (f : LinkSt → LinkSt) : (s.modLink n f).quad = s.quad := rfl
@[simp] theorem State.modLink_die (n : Nat) (f : LinkSt → LinkSt) : (s.modLink n f).die = s.die := rfl
@[simp] theorem State.modLink_path (n : Nat) (f : LinkSt → LinkSt) : (s.modLink n f).path = s.path := rfl
@[simp] theorem State.modLink_vrd (n : Nat) (f : LinkSt → LinkSt) : (s.modLink n f).vrd = s.vrd := rfl
@[simp] theorem State.modLink_reel (n : Nat) (f : LinkSt → LinkSt) : (s.modLink n f).reel = s.reel := rfl
@[simp] theorem State.modLink_spl (n : Nat) (f : LinkSt → LinkSt) : (s.modLink n f).spl = s.spl := rfl
@[simp] theorem State.modLink_sto (n : Nat) (f : LinkSt → LinkSt) : (s.modLink n f).sto = s.sto := rfl
@[simp] theorem State.modLink_env (n : Nat) (f : LinkSt → LinkSt) : (s.modLink n f).env = s.env := rfl
@[simp] theorem State.modLink_gon (n : Nat) (f : LinkSt → LinkSt) : (s.modLink n f).gon = s.gon := rfl
@[simp] theorem State.modLink_dbg (n : Nat) (f : LinkSt → LinkSt) : (s.modLink n f).dbg = s.dbg := rfl

/-! ### modCnt -/
@[simp] theorem State.modCnt_pending (n : Nat) (f : QleCnt → QleCnt) : (s.modCnt n f).pending = s.pending := rfl
@[simp] theorem State.modCnt_now (n : Nat) (f : QleCnt → QleCnt) : (s.modCnt n f).now = s.now := rfl
@[simp] theorem State.modCnt_freeCtr (n : Nat) (f : QleCnt → QleCnt) : (s.modCnt n f).freeCtr = s.freeCtr := rfl
@[simp] theorem State.modCnt_pwr (n : Nat) (f : QleCnt → QleCnt) : (s.modCnt n f).pwr = s.pwr := rfl
@[simp] theorem State.modCnt_dom (n : Nat) (f : QleCnt → QleCnt) : (s.modCnt n f).dom = s.dom := rfl
@[simp] theorem State.modCnt_regs (n : Nat) (f : QleCnt → QleCnt) : (s.modCnt n f).regs = s.regs := rfl
@[simp] theorem State.modCnt_beat (n : Nat) (f : QleCnt → QleCnt) : (s.modCnt n f).beat = s.beat := rfl
@[simp] theorem State.modCnt_sched (n : Nat) (f : QleCnt → QleCnt) : (s.modCnt n f).sched = s.sched := rfl
@[simp] theorem State.modCnt_log (n : Nat) (f : QleCnt → QleCnt) : (s.modCnt n f).log = s.log := rfl
@[simp] theorem State.modCnt_flt (n : Nat) (f : QleCnt → QleCnt) : (s.modCnt n f).flt = s.flt := rfl
@[simp] theorem State.modCnt_trn (n : Nat) (f : QleCnt → QleCnt) : (s.modCnt n f).trn = s.trn := rfl
@[simp] theorem State.modCnt_stg (n : Nat) (f : QleCnt → QleCnt) : (s.modCnt n f).stg = s.stg := rfl
@[simp] theorem State.modCnt_lane (n : Nat) (f : QleCnt → QleCnt) : (s.modCnt n f).lane = s.lane := rfl
@[simp] theorem State.modCnt_ltr (n : Nat) (f : QleCnt → QleCnt) : (s.modCnt n f).ltr = s.ltr := rfl
@[simp] theorem State.modCnt_quad (n : Nat) (f : QleCnt → QleCnt) : (s.modCnt n f).quad = s.quad := rfl
@[simp] theorem State.modCnt_die (n : Nat) (f : QleCnt → QleCnt) : (s.modCnt n f).die = s.die := rfl
@[simp] theorem State.modCnt_path (n : Nat) (f : QleCnt → QleCnt) : (s.modCnt n f).path = s.path := rfl
@[simp] theorem State.modCnt_vrd (n : Nat) (f : QleCnt → QleCnt) : (s.modCnt n f).vrd = s.vrd := rfl
@[simp] theorem State.modCnt_reel (n : Nat) (f : QleCnt → QleCnt) : (s.modCnt n f).reel = s.reel := rfl
@[simp] theorem State.modCnt_spl (n : Nat) (f : QleCnt → QleCnt) : (s.modCnt n f).spl = s.spl := rfl
@[simp] theorem State.modCnt_sto (n : Nat) (f : QleCnt → QleCnt) : (s.modCnt n f).sto = s.sto := rfl
@[simp] theorem State.modCnt_env (n : Nat) (f : QleCnt → QleCnt) : (s.modCnt n f).env = s.env := rfl
@[simp] theorem State.modCnt_gon (n : Nat) (f : QleCnt → QleCnt) : (s.modCnt n f).gon = s.gon := rfl
@[simp] theorem State.modCnt_dbg (n : Nat) (f : QleCnt → QleCnt) : (s.modCnt n f).dbg = s.dbg := rfl

/-! ### modPath -/
@[simp] theorem State.modPath_pending (n : Nat) (f : PathSt → PathSt) : (s.modPath n f).pending = s.pending := rfl
@[simp] theorem State.modPath_now (n : Nat) (f : PathSt → PathSt) : (s.modPath n f).now = s.now := rfl
@[simp] theorem State.modPath_freeCtr (n : Nat) (f : PathSt → PathSt) : (s.modPath n f).freeCtr = s.freeCtr := rfl
@[simp] theorem State.modPath_pwr (n : Nat) (f : PathSt → PathSt) : (s.modPath n f).pwr = s.pwr := rfl
@[simp] theorem State.modPath_dom (n : Nat) (f : PathSt → PathSt) : (s.modPath n f).dom = s.dom := rfl
@[simp] theorem State.modPath_regs (n : Nat) (f : PathSt → PathSt) : (s.modPath n f).regs = s.regs := rfl
@[simp] theorem State.modPath_beat (n : Nat) (f : PathSt → PathSt) : (s.modPath n f).beat = s.beat := rfl
@[simp] theorem State.modPath_sched (n : Nat) (f : PathSt → PathSt) : (s.modPath n f).sched = s.sched := rfl
@[simp] theorem State.modPath_log (n : Nat) (f : PathSt → PathSt) : (s.modPath n f).log = s.log := rfl
@[simp] theorem State.modPath_flt (n : Nat) (f : PathSt → PathSt) : (s.modPath n f).flt = s.flt := rfl
@[simp] theorem State.modPath_trn (n : Nat) (f : PathSt → PathSt) : (s.modPath n f).trn = s.trn := rfl
@[simp] theorem State.modPath_stg (n : Nat) (f : PathSt → PathSt) : (s.modPath n f).stg = s.stg := rfl
@[simp] theorem State.modPath_lane (n : Nat) (f : PathSt → PathSt) : (s.modPath n f).lane = s.lane := rfl
@[simp] theorem State.modPath_ltr (n : Nat) (f : PathSt → PathSt) : (s.modPath n f).ltr = s.ltr := rfl
@[simp] theorem State.modPath_quad (n : Nat) (f : PathSt → PathSt) : (s.modPath n f).quad = s.quad := rfl
@[simp] theorem State.modPath_die (n : Nat) (f : PathSt → PathSt) : (s.modPath n f).die = s.die := rfl
@[simp] theorem State.modPath_port (n : Nat) (f : PathSt → PathSt) : (s.modPath n f).port = s.port := rfl
@[simp] theorem State.modPath_vrd (n : Nat) (f : PathSt → PathSt) : (s.modPath n f).vrd = s.vrd := rfl
@[simp] theorem State.modPath_reel (n : Nat) (f : PathSt → PathSt) : (s.modPath n f).reel = s.reel := rfl
@[simp] theorem State.modPath_spl (n : Nat) (f : PathSt → PathSt) : (s.modPath n f).spl = s.spl := rfl
@[simp] theorem State.modPath_sto (n : Nat) (f : PathSt → PathSt) : (s.modPath n f).sto = s.sto := rfl
@[simp] theorem State.modPath_env (n : Nat) (f : PathSt → PathSt) : (s.modPath n f).env = s.env := rfl
@[simp] theorem State.modPath_gon (n : Nat) (f : PathSt → PathSt) : (s.modPath n f).gon = s.gon := rfl
@[simp] theorem State.modPath_dbg (n : Nat) (f : PathSt → PathSt) : (s.modPath n f).dbg = s.dbg := rfl

/-! ### modPair -/
@[simp] theorem State.modPair_pending (n : Nat) (f : PairSt → PairSt) : (s.modPair n f).pending = s.pending := rfl
@[simp] theorem State.modPair_now (n : Nat) (f : PairSt → PairSt) : (s.modPair n f).now = s.now := rfl
@[simp] theorem State.modPair_freeCtr (n : Nat) (f : PairSt → PairSt) : (s.modPair n f).freeCtr = s.freeCtr := rfl
@[simp] theorem State.modPair_pwr (n : Nat) (f : PairSt → PairSt) : (s.modPair n f).pwr = s.pwr := rfl
@[simp] theorem State.modPair_dom (n : Nat) (f : PairSt → PairSt) : (s.modPair n f).dom = s.dom := rfl
@[simp] theorem State.modPair_regs (n : Nat) (f : PairSt → PairSt) : (s.modPair n f).regs = s.regs := rfl
@[simp] theorem State.modPair_beat (n : Nat) (f : PairSt → PairSt) : (s.modPair n f).beat = s.beat := rfl
@[simp] theorem State.modPair_sched (n : Nat) (f : PairSt → PairSt) : (s.modPair n f).sched = s.sched := rfl
@[simp] theorem State.modPair_log (n : Nat) (f : PairSt → PairSt) : (s.modPair n f).log = s.log := rfl
@[simp] theorem State.modPair_flt (n : Nat) (f : PairSt → PairSt) : (s.modPair n f).flt = s.flt := rfl
@[simp] theorem State.modPair_trn (n : Nat) (f : PairSt → PairSt) : (s.modPair n f).trn = s.trn := rfl
@[simp] theorem State.modPair_stg (n : Nat) (f : PairSt → PairSt) : (s.modPair n f).stg = s.stg := rfl
@[simp] theorem State.modPair_lane (n : Nat) (f : PairSt → PairSt) : (s.modPair n f).lane = s.lane := rfl
@[simp] theorem State.modPair_ltr (n : Nat) (f : PairSt → PairSt) : (s.modPair n f).ltr = s.ltr := rfl
@[simp] theorem State.modPair_quad (n : Nat) (f : PairSt → PairSt) : (s.modPair n f).quad = s.quad := rfl
@[simp] theorem State.modPair_die (n : Nat) (f : PairSt → PairSt) : (s.modPair n f).die = s.die := rfl
@[simp] theorem State.modPair_port (n : Nat) (f : PairSt → PairSt) : (s.modPair n f).port = s.port := rfl
@[simp] theorem State.modPair_path (n : Nat) (f : PairSt → PairSt) : (s.modPair n f).path = s.path := rfl
@[simp] theorem State.modPair_reel (n : Nat) (f : PairSt → PairSt) : (s.modPair n f).reel = s.reel := rfl
@[simp] theorem State.modPair_spl (n : Nat) (f : PairSt → PairSt) : (s.modPair n f).spl = s.spl := rfl
@[simp] theorem State.modPair_sto (n : Nat) (f : PairSt → PairSt) : (s.modPair n f).sto = s.sto := rfl
@[simp] theorem State.modPair_env (n : Nat) (f : PairSt → PairSt) : (s.modPair n f).env = s.env := rfl
@[simp] theorem State.modPair_gon (n : Nat) (f : PairSt → PairSt) : (s.modPair n f).gon = s.gon := rfl
@[simp] theorem State.modPair_dbg (n : Nat) (f : PairSt → PairSt) : (s.modPair n f).dbg = s.dbg := rfl

/-! ### modCtx -/
@[simp] theorem State.modCtx_pending (n c : Nat) (f : CtxSt → CtxSt) : (s.modCtx n c f).pending = s.pending := rfl
@[simp] theorem State.modCtx_now (n c : Nat) (f : CtxSt → CtxSt) : (s.modCtx n c f).now = s.now := rfl
@[simp] theorem State.modCtx_freeCtr (n c : Nat) (f : CtxSt → CtxSt) : (s.modCtx n c f).freeCtr = s.freeCtr := rfl
@[simp] theorem State.modCtx_pwr (n c : Nat) (f : CtxSt → CtxSt) : (s.modCtx n c f).pwr = s.pwr := rfl
@[simp] theorem State.modCtx_dom (n c : Nat) (f : CtxSt → CtxSt) : (s.modCtx n c f).dom = s.dom := rfl
@[simp] theorem State.modCtx_regs (n c : Nat) (f : CtxSt → CtxSt) : (s.modCtx n c f).regs = s.regs := rfl
@[simp] theorem State.modCtx_beat (n c : Nat) (f : CtxSt → CtxSt) : (s.modCtx n c f).beat = s.beat := rfl
@[simp] theorem State.modCtx_sched (n c : Nat) (f : CtxSt → CtxSt) : (s.modCtx n c f).sched = s.sched := rfl
@[simp] theorem State.modCtx_log (n c : Nat) (f : CtxSt → CtxSt) : (s.modCtx n c f).log = s.log := rfl
@[simp] theorem State.modCtx_flt (n c : Nat) (f : CtxSt → CtxSt) : (s.modCtx n c f).flt = s.flt := rfl
@[simp] theorem State.modCtx_trn (n c : Nat) (f : CtxSt → CtxSt) : (s.modCtx n c f).trn = s.trn := rfl
@[simp] theorem State.modCtx_stg (n c : Nat) (f : CtxSt → CtxSt) : (s.modCtx n c f).stg = s.stg := rfl
@[simp] theorem State.modCtx_lane (n c : Nat) (f : CtxSt → CtxSt) : (s.modCtx n c f).lane = s.lane := rfl
@[simp] theorem State.modCtx_ltr (n c : Nat) (f : CtxSt → CtxSt) : (s.modCtx n c f).ltr = s.ltr := rfl
@[simp] theorem State.modCtx_quad (n c : Nat) (f : CtxSt → CtxSt) : (s.modCtx n c f).quad = s.quad := rfl
@[simp] theorem State.modCtx_die (n c : Nat) (f : CtxSt → CtxSt) : (s.modCtx n c f).die = s.die := rfl
@[simp] theorem State.modCtx_port (n c : Nat) (f : CtxSt → CtxSt) : (s.modCtx n c f).port = s.port := rfl
@[simp] theorem State.modCtx_path (n c : Nat) (f : CtxSt → CtxSt) : (s.modCtx n c f).path = s.path := rfl
@[simp] theorem State.modCtx_reel (n c : Nat) (f : CtxSt → CtxSt) : (s.modCtx n c f).reel = s.reel := rfl
@[simp] theorem State.modCtx_spl (n c : Nat) (f : CtxSt → CtxSt) : (s.modCtx n c f).spl = s.spl := rfl
@[simp] theorem State.modCtx_sto (n c : Nat) (f : CtxSt → CtxSt) : (s.modCtx n c f).sto = s.sto := rfl
@[simp] theorem State.modCtx_env (n c : Nat) (f : CtxSt → CtxSt) : (s.modCtx n c f).env = s.env := rfl
@[simp] theorem State.modCtx_gon (n c : Nat) (f : CtxSt → CtxSt) : (s.modCtx n c f).gon = s.gon := rfl
@[simp] theorem State.modCtx_dbg (n c : Nat) (f : CtxSt → CtxSt) : (s.modCtx n c f).dbg = s.dbg := rfl

/-! ### modSpl -/
@[simp] theorem State.modSpl_pending (f : SplSt → SplSt) : (s.modSpl f).pending = s.pending := rfl
@[simp] theorem State.modSpl_now (f : SplSt → SplSt) : (s.modSpl f).now = s.now := rfl
@[simp] theorem State.modSpl_freeCtr (f : SplSt → SplSt) : (s.modSpl f).freeCtr = s.freeCtr := rfl
@[simp] theorem State.modSpl_pwr (f : SplSt → SplSt) : (s.modSpl f).pwr = s.pwr := rfl
@[simp] theorem State.modSpl_dom (f : SplSt → SplSt) : (s.modSpl f).dom = s.dom := rfl
@[simp] theorem State.modSpl_regs (f : SplSt → SplSt) : (s.modSpl f).regs = s.regs := rfl
@[simp] theorem State.modSpl_beat (f : SplSt → SplSt) : (s.modSpl f).beat = s.beat := rfl
@[simp] theorem State.modSpl_sched (f : SplSt → SplSt) : (s.modSpl f).sched = s.sched := rfl
@[simp] theorem State.modSpl_log (f : SplSt → SplSt) : (s.modSpl f).log = s.log := rfl
@[simp] theorem State.modSpl_flt (f : SplSt → SplSt) : (s.modSpl f).flt = s.flt := rfl
@[simp] theorem State.modSpl_trn (f : SplSt → SplSt) : (s.modSpl f).trn = s.trn := rfl
@[simp] theorem State.modSpl_stg (f : SplSt → SplSt) : (s.modSpl f).stg = s.stg := rfl
@[simp] theorem State.modSpl_lane (f : SplSt → SplSt) : (s.modSpl f).lane = s.lane := rfl
@[simp] theorem State.modSpl_ltr (f : SplSt → SplSt) : (s.modSpl f).ltr = s.ltr := rfl
@[simp] theorem State.modSpl_quad (f : SplSt → SplSt) : (s.modSpl f).quad = s.quad := rfl
@[simp] theorem State.modSpl_die (f : SplSt → SplSt) : (s.modSpl f).die = s.die := rfl
@[simp] theorem State.modSpl_port (f : SplSt → SplSt) : (s.modSpl f).port = s.port := rfl
@[simp] theorem State.modSpl_path (f : SplSt → SplSt) : (s.modSpl f).path = s.path := rfl
@[simp] theorem State.modSpl_vrd (f : SplSt → SplSt) : (s.modSpl f).vrd = s.vrd := rfl
@[simp] theorem State.modSpl_reel (f : SplSt → SplSt) : (s.modSpl f).reel = s.reel := rfl
@[simp] theorem State.modSpl_sto (f : SplSt → SplSt) : (s.modSpl f).sto = s.sto := rfl
@[simp] theorem State.modSpl_env (f : SplSt → SplSt) : (s.modSpl f).env = s.env := rfl
@[simp] theorem State.modSpl_gon (f : SplSt → SplSt) : (s.modSpl f).gon = s.gon := rfl
@[simp] theorem State.modSpl_dbg (f : SplSt → SplSt) : (s.modSpl f).dbg = s.dbg := rfl

/-! ### modStrm -/
@[simp] theorem State.modStrm_pending (k : Nat) (f : StrmSt → StrmSt) : (s.modStrm k f).pending = s.pending := rfl
@[simp] theorem State.modStrm_now (k : Nat) (f : StrmSt → StrmSt) : (s.modStrm k f).now = s.now := rfl
@[simp] theorem State.modStrm_freeCtr (k : Nat) (f : StrmSt → StrmSt) : (s.modStrm k f).freeCtr = s.freeCtr := rfl
@[simp] theorem State.modStrm_pwr (k : Nat) (f : StrmSt → StrmSt) : (s.modStrm k f).pwr = s.pwr := rfl
@[simp] theorem State.modStrm_dom (k : Nat) (f : StrmSt → StrmSt) : (s.modStrm k f).dom = s.dom := rfl
@[simp] theorem State.modStrm_regs (k : Nat) (f : StrmSt → StrmSt) : (s.modStrm k f).regs = s.regs := rfl
@[simp] theorem State.modStrm_beat (k : Nat) (f : StrmSt → StrmSt) : (s.modStrm k f).beat = s.beat := rfl
@[simp] theorem State.modStrm_sched (k : Nat) (f : StrmSt → StrmSt) : (s.modStrm k f).sched = s.sched := rfl
@[simp] theorem State.modStrm_log (k : Nat) (f : StrmSt → StrmSt) : (s.modStrm k f).log = s.log := rfl
@[simp] theorem State.modStrm_flt (k : Nat) (f : StrmSt → StrmSt) : (s.modStrm k f).flt = s.flt := rfl
@[simp] theorem State.modStrm_trn (k : Nat) (f : StrmSt → StrmSt) : (s.modStrm k f).trn = s.trn := rfl
@[simp] theorem State.modStrm_stg (k : Nat) (f : StrmSt → StrmSt) : (s.modStrm k f).stg = s.stg := rfl
@[simp] theorem State.modStrm_lane (k : Nat) (f : StrmSt → StrmSt) : (s.modStrm k f).lane = s.lane := rfl
@[simp] theorem State.modStrm_ltr (k : Nat) (f : StrmSt → StrmSt) : (s.modStrm k f).ltr = s.ltr := rfl
@[simp] theorem State.modStrm_quad (k : Nat) (f : StrmSt → StrmSt) : (s.modStrm k f).quad = s.quad := rfl
@[simp] theorem State.modStrm_die (k : Nat) (f : StrmSt → StrmSt) : (s.modStrm k f).die = s.die := rfl
@[simp] theorem State.modStrm_port (k : Nat) (f : StrmSt → StrmSt) : (s.modStrm k f).port = s.port := rfl
@[simp] theorem State.modStrm_path (k : Nat) (f : StrmSt → StrmSt) : (s.modStrm k f).path = s.path := rfl
@[simp] theorem State.modStrm_vrd (k : Nat) (f : StrmSt → StrmSt) : (s.modStrm k f).vrd = s.vrd := rfl
@[simp] theorem State.modStrm_reel (k : Nat) (f : StrmSt → StrmSt) : (s.modStrm k f).reel = s.reel := rfl
@[simp] theorem State.modStrm_sto (k : Nat) (f : StrmSt → StrmSt) : (s.modStrm k f).sto = s.sto := rfl
@[simp] theorem State.modStrm_env (k : Nat) (f : StrmSt → StrmSt) : (s.modStrm k f).env = s.env := rfl
@[simp] theorem State.modStrm_gon (k : Nat) (f : StrmSt → StrmSt) : (s.modStrm k f).gon = s.gon := rfl
@[simp] theorem State.modStrm_dbg (k : Nat) (f : StrmSt → StrmSt) : (s.modStrm k f).dbg = s.dbg := rfl

/-! ### modHbm -/
@[simp] theorem State.modHbm_pending (h : Nat) (f : HbmSt → HbmSt) : (s.modHbm h f).pending = s.pending := rfl
@[simp] theorem State.modHbm_now (h : Nat) (f : HbmSt → HbmSt) : (s.modHbm h f).now = s.now := rfl
@[simp] theorem State.modHbm_freeCtr (h : Nat) (f : HbmSt → HbmSt) : (s.modHbm h f).freeCtr = s.freeCtr := rfl
@[simp] theorem State.modHbm_pwr (h : Nat) (f : HbmSt → HbmSt) : (s.modHbm h f).pwr = s.pwr := rfl
@[simp] theorem State.modHbm_dom (h : Nat) (f : HbmSt → HbmSt) : (s.modHbm h f).dom = s.dom := rfl
@[simp] theorem State.modHbm_regs (h : Nat) (f : HbmSt → HbmSt) : (s.modHbm h f).regs = s.regs := rfl
@[simp] theorem State.modHbm_beat (h : Nat) (f : HbmSt → HbmSt) : (s.modHbm h f).beat = s.beat := rfl
@[simp] theorem State.modHbm_sched (h : Nat) (f : HbmSt → HbmSt) : (s.modHbm h f).sched = s.sched := rfl
@[simp] theorem State.modHbm_log (h : Nat) (f : HbmSt → HbmSt) : (s.modHbm h f).log = s.log := rfl
@[simp] theorem State.modHbm_flt (h : Nat) (f : HbmSt → HbmSt) : (s.modHbm h f).flt = s.flt := rfl
@[simp] theorem State.modHbm_trn (h : Nat) (f : HbmSt → HbmSt) : (s.modHbm h f).trn = s.trn := rfl
@[simp] theorem State.modHbm_stg (h : Nat) (f : HbmSt → HbmSt) : (s.modHbm h f).stg = s.stg := rfl
@[simp] theorem State.modHbm_lane (h : Nat) (f : HbmSt → HbmSt) : (s.modHbm h f).lane = s.lane := rfl
@[simp] theorem State.modHbm_ltr (h : Nat) (f : HbmSt → HbmSt) : (s.modHbm h f).ltr = s.ltr := rfl
@[simp] theorem State.modHbm_quad (h : Nat) (f : HbmSt → HbmSt) : (s.modHbm h f).quad = s.quad := rfl
@[simp] theorem State.modHbm_die (h : Nat) (f : HbmSt → HbmSt) : (s.modHbm h f).die = s.die := rfl
@[simp] theorem State.modHbm_port (h : Nat) (f : HbmSt → HbmSt) : (s.modHbm h f).port = s.port := rfl
@[simp] theorem State.modHbm_path (h : Nat) (f : HbmSt → HbmSt) : (s.modHbm h f).path = s.path := rfl
@[simp] theorem State.modHbm_vrd (h : Nat) (f : HbmSt → HbmSt) : (s.modHbm h f).vrd = s.vrd := rfl
@[simp] theorem State.modHbm_reel (h : Nat) (f : HbmSt → HbmSt) : (s.modHbm h f).reel = s.reel := rfl
@[simp] theorem State.modHbm_sto (h : Nat) (f : HbmSt → HbmSt) : (s.modHbm h f).sto = s.sto := rfl
@[simp] theorem State.modHbm_env (h : Nat) (f : HbmSt → HbmSt) : (s.modHbm h f).env = s.env := rfl
@[simp] theorem State.modHbm_gon (h : Nat) (f : HbmSt → HbmSt) : (s.modHbm h f).gon = s.gon := rfl
@[simp] theorem State.modHbm_dbg (h : Nat) (f : HbmSt → HbmSt) : (s.modHbm h f).dbg = s.dbg := rfl

/-! ### modDrive -/
@[simp] theorem State.modDrive_pending (d : Nat) (f : DriveSt → DriveSt) : (s.modDrive d f).pending = s.pending := rfl
@[simp] theorem State.modDrive_now (d : Nat) (f : DriveSt → DriveSt) : (s.modDrive d f).now = s.now := rfl
@[simp] theorem State.modDrive_freeCtr (d : Nat) (f : DriveSt → DriveSt) : (s.modDrive d f).freeCtr = s.freeCtr := rfl
@[simp] theorem State.modDrive_pwr (d : Nat) (f : DriveSt → DriveSt) : (s.modDrive d f).pwr = s.pwr := rfl
@[simp] theorem State.modDrive_dom (d : Nat) (f : DriveSt → DriveSt) : (s.modDrive d f).dom = s.dom := rfl
@[simp] theorem State.modDrive_regs (d : Nat) (f : DriveSt → DriveSt) : (s.modDrive d f).regs = s.regs := rfl
@[simp] theorem State.modDrive_beat (d : Nat) (f : DriveSt → DriveSt) : (s.modDrive d f).beat = s.beat := rfl
@[simp] theorem State.modDrive_sched (d : Nat) (f : DriveSt → DriveSt) : (s.modDrive d f).sched = s.sched := rfl
@[simp] theorem State.modDrive_log (d : Nat) (f : DriveSt → DriveSt) : (s.modDrive d f).log = s.log := rfl
@[simp] theorem State.modDrive_flt (d : Nat) (f : DriveSt → DriveSt) : (s.modDrive d f).flt = s.flt := rfl
@[simp] theorem State.modDrive_trn (d : Nat) (f : DriveSt → DriveSt) : (s.modDrive d f).trn = s.trn := rfl
@[simp] theorem State.modDrive_stg (d : Nat) (f : DriveSt → DriveSt) : (s.modDrive d f).stg = s.stg := rfl
@[simp] theorem State.modDrive_lane (d : Nat) (f : DriveSt → DriveSt) : (s.modDrive d f).lane = s.lane := rfl
@[simp] theorem State.modDrive_ltr (d : Nat) (f : DriveSt → DriveSt) : (s.modDrive d f).ltr = s.ltr := rfl
@[simp] theorem State.modDrive_quad (d : Nat) (f : DriveSt → DriveSt) : (s.modDrive d f).quad = s.quad := rfl
@[simp] theorem State.modDrive_die (d : Nat) (f : DriveSt → DriveSt) : (s.modDrive d f).die = s.die := rfl
@[simp] theorem State.modDrive_port (d : Nat) (f : DriveSt → DriveSt) : (s.modDrive d f).port = s.port := rfl
@[simp] theorem State.modDrive_path (d : Nat) (f : DriveSt → DriveSt) : (s.modDrive d f).path = s.path := rfl
@[simp] theorem State.modDrive_vrd (d : Nat) (f : DriveSt → DriveSt) : (s.modDrive d f).vrd = s.vrd := rfl
@[simp] theorem State.modDrive_reel (d : Nat) (f : DriveSt → DriveSt) : (s.modDrive d f).reel = s.reel := rfl
@[simp] theorem State.modDrive_spl (d : Nat) (f : DriveSt → DriveSt) : (s.modDrive d f).spl = s.spl := rfl
@[simp] theorem State.modDrive_env (d : Nat) (f : DriveSt → DriveSt) : (s.modDrive d f).env = s.env := rfl
@[simp] theorem State.modDrive_gon (d : Nat) (f : DriveSt → DriveSt) : (s.modDrive d f).gon = s.gon := rfl
@[simp] theorem State.modDrive_dbg (d : Nat) (f : DriveSt → DriveSt) : (s.modDrive d f).dbg = s.dbg := rfl

/-! ### modEnv -/
@[simp] theorem State.modEnv_pending (f : EnvSt → EnvSt) : (s.modEnv f).pending = s.pending := rfl
@[simp] theorem State.modEnv_now (f : EnvSt → EnvSt) : (s.modEnv f).now = s.now := rfl
@[simp] theorem State.modEnv_freeCtr (f : EnvSt → EnvSt) : (s.modEnv f).freeCtr = s.freeCtr := rfl
@[simp] theorem State.modEnv_pwr (f : EnvSt → EnvSt) : (s.modEnv f).pwr = s.pwr := rfl
@[simp] theorem State.modEnv_dom (f : EnvSt → EnvSt) : (s.modEnv f).dom = s.dom := rfl
@[simp] theorem State.modEnv_regs (f : EnvSt → EnvSt) : (s.modEnv f).regs = s.regs := rfl
@[simp] theorem State.modEnv_beat (f : EnvSt → EnvSt) : (s.modEnv f).beat = s.beat := rfl
@[simp] theorem State.modEnv_sched (f : EnvSt → EnvSt) : (s.modEnv f).sched = s.sched := rfl
@[simp] theorem State.modEnv_log (f : EnvSt → EnvSt) : (s.modEnv f).log = s.log := rfl
@[simp] theorem State.modEnv_flt (f : EnvSt → EnvSt) : (s.modEnv f).flt = s.flt := rfl
@[simp] theorem State.modEnv_trn (f : EnvSt → EnvSt) : (s.modEnv f).trn = s.trn := rfl
@[simp] theorem State.modEnv_stg (f : EnvSt → EnvSt) : (s.modEnv f).stg = s.stg := rfl
@[simp] theorem State.modEnv_lane (f : EnvSt → EnvSt) : (s.modEnv f).lane = s.lane := rfl
@[simp] theorem State.modEnv_ltr (f : EnvSt → EnvSt) : (s.modEnv f).ltr = s.ltr := rfl
@[simp] theorem State.modEnv_quad (f : EnvSt → EnvSt) : (s.modEnv f).quad = s.quad := rfl
@[simp] theorem State.modEnv_die (f : EnvSt → EnvSt) : (s.modEnv f).die = s.die := rfl
@[simp] theorem State.modEnv_port (f : EnvSt → EnvSt) : (s.modEnv f).port = s.port := rfl
@[simp] theorem State.modEnv_path (f : EnvSt → EnvSt) : (s.modEnv f).path = s.path := rfl
@[simp] theorem State.modEnv_vrd (f : EnvSt → EnvSt) : (s.modEnv f).vrd = s.vrd := rfl
@[simp] theorem State.modEnv_reel (f : EnvSt → EnvSt) : (s.modEnv f).reel = s.reel := rfl
@[simp] theorem State.modEnv_spl (f : EnvSt → EnvSt) : (s.modEnv f).spl = s.spl := rfl
@[simp] theorem State.modEnv_sto (f : EnvSt → EnvSt) : (s.modEnv f).sto = s.sto := rfl
@[simp] theorem State.modEnv_gon (f : EnvSt → EnvSt) : (s.modEnv f).gon = s.gon := rfl
@[simp] theorem State.modEnv_dbg (f : EnvSt → EnvSt) : (s.modEnv f).dbg = s.dbg := rfl

/-! ### modKey -/
@[simp] theorem State.modKey_pending (i : Nat) (f : KeySt → KeySt) : (s.modKey i f).pending = s.pending := rfl
@[simp] theorem State.modKey_now (i : Nat) (f : KeySt → KeySt) : (s.modKey i f).now = s.now := rfl
@[simp] theorem State.modKey_freeCtr (i : Nat) (f : KeySt → KeySt) : (s.modKey i f).freeCtr = s.freeCtr := rfl
@[simp] theorem State.modKey_pwr (i : Nat) (f : KeySt → KeySt) : (s.modKey i f).pwr = s.pwr := rfl
@[simp] theorem State.modKey_dom (i : Nat) (f : KeySt → KeySt) : (s.modKey i f).dom = s.dom := rfl
@[simp] theorem State.modKey_regs (i : Nat) (f : KeySt → KeySt) : (s.modKey i f).regs = s.regs := rfl
@[simp] theorem State.modKey_beat (i : Nat) (f : KeySt → KeySt) : (s.modKey i f).beat = s.beat := rfl
@[simp] theorem State.modKey_sched (i : Nat) (f : KeySt → KeySt) : (s.modKey i f).sched = s.sched := rfl
@[simp] theorem State.modKey_log (i : Nat) (f : KeySt → KeySt) : (s.modKey i f).log = s.log := rfl
@[simp] theorem State.modKey_flt (i : Nat) (f : KeySt → KeySt) : (s.modKey i f).flt = s.flt := rfl
@[simp] theorem State.modKey_trn (i : Nat) (f : KeySt → KeySt) : (s.modKey i f).trn = s.trn := rfl
@[simp] theorem State.modKey_stg (i : Nat) (f : KeySt → KeySt) : (s.modKey i f).stg = s.stg := rfl
@[simp] theorem State.modKey_lane (i : Nat) (f : KeySt → KeySt) : (s.modKey i f).lane = s.lane := rfl
@[simp] theorem State.modKey_ltr (i : Nat) (f : KeySt → KeySt) : (s.modKey i f).ltr = s.ltr := rfl
@[simp] theorem State.modKey_quad (i : Nat) (f : KeySt → KeySt) : (s.modKey i f).quad = s.quad := rfl
@[simp] theorem State.modKey_die (i : Nat) (f : KeySt → KeySt) : (s.modKey i f).die = s.die := rfl
@[simp] theorem State.modKey_port (i : Nat) (f : KeySt → KeySt) : (s.modKey i f).port = s.port := rfl
@[simp] theorem State.modKey_path (i : Nat) (f : KeySt → KeySt) : (s.modKey i f).path = s.path := rfl
@[simp] theorem State.modKey_vrd (i : Nat) (f : KeySt → KeySt) : (s.modKey i f).vrd = s.vrd := rfl
@[simp] theorem State.modKey_reel (i : Nat) (f : KeySt → KeySt) : (s.modKey i f).reel = s.reel := rfl
@[simp] theorem State.modKey_spl (i : Nat) (f : KeySt → KeySt) : (s.modKey i f).spl = s.spl := rfl
@[simp] theorem State.modKey_sto (i : Nat) (f : KeySt → KeySt) : (s.modKey i f).sto = s.sto := rfl
@[simp] theorem State.modKey_gon (i : Nat) (f : KeySt → KeySt) : (s.modKey i f).gon = s.gon := rfl
@[simp] theorem State.modKey_dbg (i : Nat) (f : KeySt → KeySt) : (s.modKey i f).dbg = s.dbg := rfl

/-! ### modGon -/
@[simp] theorem State.modGon_pending (f : GonSt → GonSt) : (s.modGon f).pending = s.pending := rfl
@[simp] theorem State.modGon_now (f : GonSt → GonSt) : (s.modGon f).now = s.now := rfl
@[simp] theorem State.modGon_freeCtr (f : GonSt → GonSt) : (s.modGon f).freeCtr = s.freeCtr := rfl
@[simp] theorem State.modGon_pwr (f : GonSt → GonSt) : (s.modGon f).pwr = s.pwr := rfl
@[simp] theorem State.modGon_dom (f : GonSt → GonSt) : (s.modGon f).dom = s.dom := rfl
@[simp] theorem State.modGon_regs (f : GonSt → GonSt) : (s.modGon f).regs = s.regs := rfl
@[simp] theorem State.modGon_beat (f : GonSt → GonSt) : (s.modGon f).beat = s.beat := rfl
@[simp] theorem State.modGon_sched (f : GonSt → GonSt) : (s.modGon f).sched = s.sched := rfl
@[simp] theorem State.modGon_log (f : GonSt → GonSt) : (s.modGon f).log = s.log := rfl
@[simp] theorem State.modGon_flt (f : GonSt → GonSt) : (s.modGon f).flt = s.flt := rfl
@[simp] theorem State.modGon_trn (f : GonSt → GonSt) : (s.modGon f).trn = s.trn := rfl
@[simp] theorem State.modGon_stg (f : GonSt → GonSt) : (s.modGon f).stg = s.stg := rfl
@[simp] theorem State.modGon_lane (f : GonSt → GonSt) : (s.modGon f).lane = s.lane := rfl
@[simp] theorem State.modGon_ltr (f : GonSt → GonSt) : (s.modGon f).ltr = s.ltr := rfl
@[simp] theorem State.modGon_quad (f : GonSt → GonSt) : (s.modGon f).quad = s.quad := rfl
@[simp] theorem State.modGon_die (f : GonSt → GonSt) : (s.modGon f).die = s.die := rfl
@[simp] theorem State.modGon_port (f : GonSt → GonSt) : (s.modGon f).port = s.port := rfl
@[simp] theorem State.modGon_path (f : GonSt → GonSt) : (s.modGon f).path = s.path := rfl
@[simp] theorem State.modGon_vrd (f : GonSt → GonSt) : (s.modGon f).vrd = s.vrd := rfl
@[simp] theorem State.modGon_reel (f : GonSt → GonSt) : (s.modGon f).reel = s.reel := rfl
@[simp] theorem State.modGon_spl (f : GonSt → GonSt) : (s.modGon f).spl = s.spl := rfl
@[simp] theorem State.modGon_sto (f : GonSt → GonSt) : (s.modGon f).sto = s.sto := rfl
@[simp] theorem State.modGon_env (f : GonSt → GonSt) : (s.modGon f).env = s.env := rfl
@[simp] theorem State.modGon_dbg (f : GonSt → GonSt) : (s.modGon f).dbg = s.dbg := rfl

/-! ### modCore -/
@[simp] theorem State.modCore_pending (c : Nat) (f : CoreSt → CoreSt) : (s.modCore c f).pending = s.pending := rfl
@[simp] theorem State.modCore_now (c : Nat) (f : CoreSt → CoreSt) : (s.modCore c f).now = s.now := rfl
@[simp] theorem State.modCore_freeCtr (c : Nat) (f : CoreSt → CoreSt) : (s.modCore c f).freeCtr = s.freeCtr := rfl
@[simp] theorem State.modCore_pwr (c : Nat) (f : CoreSt → CoreSt) : (s.modCore c f).pwr = s.pwr := rfl
@[simp] theorem State.modCore_dom (c : Nat) (f : CoreSt → CoreSt) : (s.modCore c f).dom = s.dom := rfl
@[simp] theorem State.modCore_regs (c : Nat) (f : CoreSt → CoreSt) : (s.modCore c f).regs = s.regs := rfl
@[simp] theorem State.modCore_beat (c : Nat) (f : CoreSt → CoreSt) : (s.modCore c f).beat = s.beat := rfl
@[simp] theorem State.modCore_sched (c : Nat) (f : CoreSt → CoreSt) : (s.modCore c f).sched = s.sched := rfl
@[simp] theorem State.modCore_log (c : Nat) (f : CoreSt → CoreSt) : (s.modCore c f).log = s.log := rfl
@[simp] theorem State.modCore_flt (c : Nat) (f : CoreSt → CoreSt) : (s.modCore c f).flt = s.flt := rfl
@[simp] theorem State.modCore_trn (c : Nat) (f : CoreSt → CoreSt) : (s.modCore c f).trn = s.trn := rfl
@[simp] theorem State.modCore_stg (c : Nat) (f : CoreSt → CoreSt) : (s.modCore c f).stg = s.stg := rfl
@[simp] theorem State.modCore_lane (c : Nat) (f : CoreSt → CoreSt) : (s.modCore c f).lane = s.lane := rfl
@[simp] theorem State.modCore_ltr (c : Nat) (f : CoreSt → CoreSt) : (s.modCore c f).ltr = s.ltr := rfl
@[simp] theorem State.modCore_quad (c : Nat) (f : CoreSt → CoreSt) : (s.modCore c f).quad = s.quad := rfl
@[simp] theorem State.modCore_die (c : Nat) (f : CoreSt → CoreSt) : (s.modCore c f).die = s.die := rfl
@[simp] theorem State.modCore_port (c : Nat) (f : CoreSt → CoreSt) : (s.modCore c f).port = s.port := rfl
@[simp] theorem State.modCore_path (c : Nat) (f : CoreSt → CoreSt) : (s.modCore c f).path = s.path := rfl
@[simp] theorem State.modCore_vrd (c : Nat) (f : CoreSt → CoreSt) : (s.modCore c f).vrd = s.vrd := rfl
@[simp] theorem State.modCore_reel (c : Nat) (f : CoreSt → CoreSt) : (s.modCore c f).reel = s.reel := rfl
@[simp] theorem State.modCore_spl (c : Nat) (f : CoreSt → CoreSt) : (s.modCore c f).spl = s.spl := rfl
@[simp] theorem State.modCore_sto (c : Nat) (f : CoreSt → CoreSt) : (s.modCore c f).sto = s.sto := rfl
@[simp] theorem State.modCore_env (c : Nat) (f : CoreSt → CoreSt) : (s.modCore c f).env = s.env := rfl
@[simp] theorem State.modCore_dbg (c : Nat) (f : CoreSt → CoreSt) : (s.modCore c f).dbg = s.dbg := rfl

/-! ### modLock -/
@[simp] theorem State.modLock_pending (n : Nat) (f : LockSt → LockSt) : (s.modLock n f).pending = s.pending := rfl
@[simp] theorem State.modLock_now (n : Nat) (f : LockSt → LockSt) : (s.modLock n f).now = s.now := rfl
@[simp] theorem State.modLock_freeCtr (n : Nat) (f : LockSt → LockSt) : (s.modLock n f).freeCtr = s.freeCtr := rfl
@[simp] theorem State.modLock_pwr (n : Nat) (f : LockSt → LockSt) : (s.modLock n f).pwr = s.pwr := rfl
@[simp] theorem State.modLock_dom (n : Nat) (f : LockSt → LockSt) : (s.modLock n f).dom = s.dom := rfl
@[simp] theorem State.modLock_regs (n : Nat) (f : LockSt → LockSt) : (s.modLock n f).regs = s.regs := rfl
@[simp] theorem State.modLock_beat (n : Nat) (f : LockSt → LockSt) : (s.modLock n f).beat = s.beat := rfl
@[simp] theorem State.modLock_sched (n : Nat) (f : LockSt → LockSt) : (s.modLock n f).sched = s.sched := rfl
@[simp] theorem State.modLock_log (n : Nat) (f : LockSt → LockSt) : (s.modLock n f).log = s.log := rfl
@[simp] theorem State.modLock_flt (n : Nat) (f : LockSt → LockSt) : (s.modLock n f).flt = s.flt := rfl
@[simp] theorem State.modLock_trn (n : Nat) (f : LockSt → LockSt) : (s.modLock n f).trn = s.trn := rfl
@[simp] theorem State.modLock_stg (n : Nat) (f : LockSt → LockSt) : (s.modLock n f).stg = s.stg := rfl
@[simp] theorem State.modLock_lane (n : Nat) (f : LockSt → LockSt) : (s.modLock n f).lane = s.lane := rfl
@[simp] theorem State.modLock_ltr (n : Nat) (f : LockSt → LockSt) : (s.modLock n f).ltr = s.ltr := rfl
@[simp] theorem State.modLock_quad (n : Nat) (f : LockSt → LockSt) : (s.modLock n f).quad = s.quad := rfl
@[simp] theorem State.modLock_die (n : Nat) (f : LockSt → LockSt) : (s.modLock n f).die = s.die := rfl
@[simp] theorem State.modLock_port (n : Nat) (f : LockSt → LockSt) : (s.modLock n f).port = s.port := rfl
@[simp] theorem State.modLock_path (n : Nat) (f : LockSt → LockSt) : (s.modLock n f).path = s.path := rfl
@[simp] theorem State.modLock_vrd (n : Nat) (f : LockSt → LockSt) : (s.modLock n f).vrd = s.vrd := rfl
@[simp] theorem State.modLock_reel (n : Nat) (f : LockSt → LockSt) : (s.modLock n f).reel = s.reel := rfl
@[simp] theorem State.modLock_spl (n : Nat) (f : LockSt → LockSt) : (s.modLock n f).spl = s.spl := rfl
@[simp] theorem State.modLock_sto (n : Nat) (f : LockSt → LockSt) : (s.modLock n f).sto = s.sto := rfl
@[simp] theorem State.modLock_env (n : Nat) (f : LockSt → LockSt) : (s.modLock n f).env = s.env := rfl
@[simp] theorem State.modLock_dbg (n : Nat) (f : LockSt → LockSt) : (s.modLock n f).dbg = s.dbg := rfl

/-! ### modMb -/
@[simp] theorem State.modMb_pending (m : Nat) (f : MbSt → MbSt) : (s.modMb m f).pending = s.pending := rfl
@[simp] theorem State.modMb_now (m : Nat) (f : MbSt → MbSt) : (s.modMb m f).now = s.now := rfl
@[simp] theorem State.modMb_freeCtr (m : Nat) (f : MbSt → MbSt) : (s.modMb m f).freeCtr = s.freeCtr := rfl
@[simp] theorem State.modMb_pwr (m : Nat) (f : MbSt → MbSt) : (s.modMb m f).pwr = s.pwr := rfl
@[simp] theorem State.modMb_dom (m : Nat) (f : MbSt → MbSt) : (s.modMb m f).dom = s.dom := rfl
@[simp] theorem State.modMb_regs (m : Nat) (f : MbSt → MbSt) : (s.modMb m f).regs = s.regs := rfl
@[simp] theorem State.modMb_beat (m : Nat) (f : MbSt → MbSt) : (s.modMb m f).beat = s.beat := rfl
@[simp] theorem State.modMb_sched (m : Nat) (f : MbSt → MbSt) : (s.modMb m f).sched = s.sched := rfl
@[simp] theorem State.modMb_log (m : Nat) (f : MbSt → MbSt) : (s.modMb m f).log = s.log := rfl
@[simp] theorem State.modMb_flt (m : Nat) (f : MbSt → MbSt) : (s.modMb m f).flt = s.flt := rfl
@[simp] theorem State.modMb_trn (m : Nat) (f : MbSt → MbSt) : (s.modMb m f).trn = s.trn := rfl
@[simp] theorem State.modMb_stg (m : Nat) (f : MbSt → MbSt) : (s.modMb m f).stg = s.stg := rfl
@[simp] theorem State.modMb_lane (m : Nat) (f : MbSt → MbSt) : (s.modMb m f).lane = s.lane := rfl
@[simp] theorem State.modMb_ltr (m : Nat) (f : MbSt → MbSt) : (s.modMb m f).ltr = s.ltr := rfl
@[simp] theorem State.modMb_quad (m : Nat) (f : MbSt → MbSt) : (s.modMb m f).quad = s.quad := rfl
@[simp] theorem State.modMb_die (m : Nat) (f : MbSt → MbSt) : (s.modMb m f).die = s.die := rfl
@[simp] theorem State.modMb_port (m : Nat) (f : MbSt → MbSt) : (s.modMb m f).port = s.port := rfl
@[simp] theorem State.modMb_path (m : Nat) (f : MbSt → MbSt) : (s.modMb m f).path = s.path := rfl
@[simp] theorem State.modMb_vrd (m : Nat) (f : MbSt → MbSt) : (s.modMb m f).vrd = s.vrd := rfl
@[simp] theorem State.modMb_reel (m : Nat) (f : MbSt → MbSt) : (s.modMb m f).reel = s.reel := rfl
@[simp] theorem State.modMb_spl (m : Nat) (f : MbSt → MbSt) : (s.modMb m f).spl = s.spl := rfl
@[simp] theorem State.modMb_sto (m : Nat) (f : MbSt → MbSt) : (s.modMb m f).sto = s.sto := rfl
@[simp] theorem State.modMb_env (m : Nat) (f : MbSt → MbSt) : (s.modMb m f).env = s.env := rfl
@[simp] theorem State.modMb_dbg (m : Nat) (f : MbSt → MbSt) : (s.modMb m f).dbg = s.dbg := rfl

/-! ### modUnit -/
@[simp] theorem State.modUnit_pending (u : Nat) (f : UnitSt → UnitSt) : (s.modUnit u f).pending = s.pending := rfl
@[simp] theorem State.modUnit_now (u : Nat) (f : UnitSt → UnitSt) : (s.modUnit u f).now = s.now := rfl
@[simp] theorem State.modUnit_freeCtr (u : Nat) (f : UnitSt → UnitSt) : (s.modUnit u f).freeCtr = s.freeCtr := rfl
@[simp] theorem State.modUnit_pwr (u : Nat) (f : UnitSt → UnitSt) : (s.modUnit u f).pwr = s.pwr := rfl
@[simp] theorem State.modUnit_dom (u : Nat) (f : UnitSt → UnitSt) : (s.modUnit u f).dom = s.dom := rfl
@[simp] theorem State.modUnit_regs (u : Nat) (f : UnitSt → UnitSt) : (s.modUnit u f).regs = s.regs := rfl
@[simp] theorem State.modUnit_beat (u : Nat) (f : UnitSt → UnitSt) : (s.modUnit u f).beat = s.beat := rfl
@[simp] theorem State.modUnit_sched (u : Nat) (f : UnitSt → UnitSt) : (s.modUnit u f).sched = s.sched := rfl
@[simp] theorem State.modUnit_log (u : Nat) (f : UnitSt → UnitSt) : (s.modUnit u f).log = s.log := rfl
@[simp] theorem State.modUnit_flt (u : Nat) (f : UnitSt → UnitSt) : (s.modUnit u f).flt = s.flt := rfl
@[simp] theorem State.modUnit_trn (u : Nat) (f : UnitSt → UnitSt) : (s.modUnit u f).trn = s.trn := rfl
@[simp] theorem State.modUnit_stg (u : Nat) (f : UnitSt → UnitSt) : (s.modUnit u f).stg = s.stg := rfl
@[simp] theorem State.modUnit_lane (u : Nat) (f : UnitSt → UnitSt) : (s.modUnit u f).lane = s.lane := rfl
@[simp] theorem State.modUnit_ltr (u : Nat) (f : UnitSt → UnitSt) : (s.modUnit u f).ltr = s.ltr := rfl
@[simp] theorem State.modUnit_quad (u : Nat) (f : UnitSt → UnitSt) : (s.modUnit u f).quad = s.quad := rfl
@[simp] theorem State.modUnit_die (u : Nat) (f : UnitSt → UnitSt) : (s.modUnit u f).die = s.die := rfl
@[simp] theorem State.modUnit_port (u : Nat) (f : UnitSt → UnitSt) : (s.modUnit u f).port = s.port := rfl
@[simp] theorem State.modUnit_path (u : Nat) (f : UnitSt → UnitSt) : (s.modUnit u f).path = s.path := rfl
@[simp] theorem State.modUnit_vrd (u : Nat) (f : UnitSt → UnitSt) : (s.modUnit u f).vrd = s.vrd := rfl
@[simp] theorem State.modUnit_reel (u : Nat) (f : UnitSt → UnitSt) : (s.modUnit u f).reel = s.reel := rfl
@[simp] theorem State.modUnit_spl (u : Nat) (f : UnitSt → UnitSt) : (s.modUnit u f).spl = s.spl := rfl
@[simp] theorem State.modUnit_sto (u : Nat) (f : UnitSt → UnitSt) : (s.modUnit u f).sto = s.sto := rfl
@[simp] theorem State.modUnit_env (u : Nat) (f : UnitSt → UnitSt) : (s.modUnit u f).env = s.env := rfl
@[simp] theorem State.modUnit_dbg (u : Nat) (f : UnitSt → UnitSt) : (s.modUnit u f).dbg = s.dbg := rfl

/-! ### modDom -/
@[simp] theorem State.modDom_pending (d : Nat) (f : DomSt → DomSt) : (s.modDom d f).pending = s.pending := rfl
@[simp] theorem State.modDom_now (d : Nat) (f : DomSt → DomSt) : (s.modDom d f).now = s.now := rfl
@[simp] theorem State.modDom_freeCtr (d : Nat) (f : DomSt → DomSt) : (s.modDom d f).freeCtr = s.freeCtr := rfl
@[simp] theorem State.modDom_pwr (d : Nat) (f : DomSt → DomSt) : (s.modDom d f).pwr = s.pwr := rfl
@[simp] theorem State.modDom_regs (d : Nat) (f : DomSt → DomSt) : (s.modDom d f).regs = s.regs := rfl
@[simp] theorem State.modDom_beat (d : Nat) (f : DomSt → DomSt) : (s.modDom d f).beat = s.beat := rfl
@[simp] theorem State.modDom_sched (d : Nat) (f : DomSt → DomSt) : (s.modDom d f).sched = s.sched := rfl
@[simp] theorem State.modDom_log (d : Nat) (f : DomSt → DomSt) : (s.modDom d f).log = s.log := rfl
@[simp] theorem State.modDom_flt (d : Nat) (f : DomSt → DomSt) : (s.modDom d f).flt = s.flt := rfl
@[simp] theorem State.modDom_trn (d : Nat) (f : DomSt → DomSt) : (s.modDom d f).trn = s.trn := rfl
@[simp] theorem State.modDom_stg (d : Nat) (f : DomSt → DomSt) : (s.modDom d f).stg = s.stg := rfl
@[simp] theorem State.modDom_lane (d : Nat) (f : DomSt → DomSt) : (s.modDom d f).lane = s.lane := rfl
@[simp] theorem State.modDom_ltr (d : Nat) (f : DomSt → DomSt) : (s.modDom d f).ltr = s.ltr := rfl
@[simp] theorem State.modDom_quad (d : Nat) (f : DomSt → DomSt) : (s.modDom d f).quad = s.quad := rfl
@[simp] theorem State.modDom_die (d : Nat) (f : DomSt → DomSt) : (s.modDom d f).die = s.die := rfl
@[simp] theorem State.modDom_port (d : Nat) (f : DomSt → DomSt) : (s.modDom d f).port = s.port := rfl
@[simp] theorem State.modDom_path (d : Nat) (f : DomSt → DomSt) : (s.modDom d f).path = s.path := rfl
@[simp] theorem State.modDom_vrd (d : Nat) (f : DomSt → DomSt) : (s.modDom d f).vrd = s.vrd := rfl
@[simp] theorem State.modDom_reel (d : Nat) (f : DomSt → DomSt) : (s.modDom d f).reel = s.reel := rfl
@[simp] theorem State.modDom_spl (d : Nat) (f : DomSt → DomSt) : (s.modDom d f).spl = s.spl := rfl
@[simp] theorem State.modDom_sto (d : Nat) (f : DomSt → DomSt) : (s.modDom d f).sto = s.sto := rfl
@[simp] theorem State.modDom_env (d : Nat) (f : DomSt → DomSt) : (s.modDom d f).env = s.env := rfl
@[simp] theorem State.modDom_gon (d : Nat) (f : DomSt → DomSt) : (s.modDom d f).gon = s.gon := rfl
@[simp] theorem State.modDom_dbg (d : Nat) (f : DomSt → DomSt) : (s.modDom d f).dbg = s.dbg := rfl

/-! ### modSrc -/
@[simp] theorem State.modSrc_pending (n : Nat) (f : SrcSt → SrcSt) : (s.modSrc n f).pending = s.pending := rfl
@[simp] theorem State.modSrc_now (n : Nat) (f : SrcSt → SrcSt) : (s.modSrc n f).now = s.now := rfl
@[simp] theorem State.modSrc_freeCtr (n : Nat) (f : SrcSt → SrcSt) : (s.modSrc n f).freeCtr = s.freeCtr := rfl
@[simp] theorem State.modSrc_pwr (n : Nat) (f : SrcSt → SrcSt) : (s.modSrc n f).pwr = s.pwr := rfl
@[simp] theorem State.modSrc_dom (n : Nat) (f : SrcSt → SrcSt) : (s.modSrc n f).dom = s.dom := rfl
@[simp] theorem State.modSrc_regs (n : Nat) (f : SrcSt → SrcSt) : (s.modSrc n f).regs = s.regs := rfl
@[simp] theorem State.modSrc_beat (n : Nat) (f : SrcSt → SrcSt) : (s.modSrc n f).beat = s.beat := rfl
@[simp] theorem State.modSrc_sched (n : Nat) (f : SrcSt → SrcSt) : (s.modSrc n f).sched = s.sched := rfl
@[simp] theorem State.modSrc_log (n : Nat) (f : SrcSt → SrcSt) : (s.modSrc n f).log = s.log := rfl
@[simp] theorem State.modSrc_trn (n : Nat) (f : SrcSt → SrcSt) : (s.modSrc n f).trn = s.trn := rfl
@[simp] theorem State.modSrc_stg (n : Nat) (f : SrcSt → SrcSt) : (s.modSrc n f).stg = s.stg := rfl
@[simp] theorem State.modSrc_lane (n : Nat) (f : SrcSt → SrcSt) : (s.modSrc n f).lane = s.lane := rfl
@[simp] theorem State.modSrc_ltr (n : Nat) (f : SrcSt → SrcSt) : (s.modSrc n f).ltr = s.ltr := rfl
@[simp] theorem State.modSrc_quad (n : Nat) (f : SrcSt → SrcSt) : (s.modSrc n f).quad = s.quad := rfl
@[simp] theorem State.modSrc_die (n : Nat) (f : SrcSt → SrcSt) : (s.modSrc n f).die = s.die := rfl
@[simp] theorem State.modSrc_port (n : Nat) (f : SrcSt → SrcSt) : (s.modSrc n f).port = s.port := rfl
@[simp] theorem State.modSrc_path (n : Nat) (f : SrcSt → SrcSt) : (s.modSrc n f).path = s.path := rfl
@[simp] theorem State.modSrc_vrd (n : Nat) (f : SrcSt → SrcSt) : (s.modSrc n f).vrd = s.vrd := rfl
@[simp] theorem State.modSrc_reel (n : Nat) (f : SrcSt → SrcSt) : (s.modSrc n f).reel = s.reel := rfl
@[simp] theorem State.modSrc_spl (n : Nat) (f : SrcSt → SrcSt) : (s.modSrc n f).spl = s.spl := rfl
@[simp] theorem State.modSrc_sto (n : Nat) (f : SrcSt → SrcSt) : (s.modSrc n f).sto = s.sto := rfl
@[simp] theorem State.modSrc_env (n : Nat) (f : SrcSt → SrcSt) : (s.modSrc n f).env = s.env := rfl
@[simp] theorem State.modSrc_gon (n : Nat) (f : SrcSt → SrcSt) : (s.modSrc n f).gon = s.gon := rfl
@[simp] theorem State.modSrc_dbg (n : Nat) (f : SrcSt → SrcSt) : (s.modSrc n f).dbg = s.dbg := rfl

/-! ### modTrn -/
@[simp] theorem State.modTrn_pending (f : TrnSt → TrnSt) : (s.modTrn f).pending = s.pending := rfl
@[simp] theorem State.modTrn_now (f : TrnSt → TrnSt) : (s.modTrn f).now = s.now := rfl
@[simp] theorem State.modTrn_freeCtr (f : TrnSt → TrnSt) : (s.modTrn f).freeCtr = s.freeCtr := rfl
@[simp] theorem State.modTrn_pwr (f : TrnSt → TrnSt) : (s.modTrn f).pwr = s.pwr := rfl
@[simp] theorem State.modTrn_dom (f : TrnSt → TrnSt) : (s.modTrn f).dom = s.dom := rfl
@[simp] theorem State.modTrn_regs (f : TrnSt → TrnSt) : (s.modTrn f).regs = s.regs := rfl
@[simp] theorem State.modTrn_beat (f : TrnSt → TrnSt) : (s.modTrn f).beat = s.beat := rfl
@[simp] theorem State.modTrn_sched (f : TrnSt → TrnSt) : (s.modTrn f).sched = s.sched := rfl
@[simp] theorem State.modTrn_log (f : TrnSt → TrnSt) : (s.modTrn f).log = s.log := rfl
@[simp] theorem State.modTrn_flt (f : TrnSt → TrnSt) : (s.modTrn f).flt = s.flt := rfl
@[simp] theorem State.modTrn_stg (f : TrnSt → TrnSt) : (s.modTrn f).stg = s.stg := rfl
@[simp] theorem State.modTrn_lane (f : TrnSt → TrnSt) : (s.modTrn f).lane = s.lane := rfl
@[simp] theorem State.modTrn_ltr (f : TrnSt → TrnSt) : (s.modTrn f).ltr = s.ltr := rfl
@[simp] theorem State.modTrn_quad (f : TrnSt → TrnSt) : (s.modTrn f).quad = s.quad := rfl
@[simp] theorem State.modTrn_die (f : TrnSt → TrnSt) : (s.modTrn f).die = s.die := rfl
@[simp] theorem State.modTrn_port (f : TrnSt → TrnSt) : (s.modTrn f).port = s.port := rfl
@[simp] theorem State.modTrn_path (f : TrnSt → TrnSt) : (s.modTrn f).path = s.path := rfl
@[simp] theorem State.modTrn_vrd (f : TrnSt → TrnSt) : (s.modTrn f).vrd = s.vrd := rfl
@[simp] theorem State.modTrn_reel (f : TrnSt → TrnSt) : (s.modTrn f).reel = s.reel := rfl
@[simp] theorem State.modTrn_spl (f : TrnSt → TrnSt) : (s.modTrn f).spl = s.spl := rfl
@[simp] theorem State.modTrn_sto (f : TrnSt → TrnSt) : (s.modTrn f).sto = s.sto := rfl
@[simp] theorem State.modTrn_env (f : TrnSt → TrnSt) : (s.modTrn f).env = s.env := rfl
@[simp] theorem State.modTrn_gon (f : TrnSt → TrnSt) : (s.modTrn f).gon = s.gon := rfl
@[simp] theorem State.modTrn_dbg (f : TrnSt → TrnSt) : (s.modTrn f).dbg = s.dbg := rfl

/-! ### modPeer -/
@[simp] theorem State.modPeer_pending (m : Nat) (f : PeerSt → PeerSt) : (s.modPeer m f).pending = s.pending := rfl
@[simp] theorem State.modPeer_now (m : Nat) (f : PeerSt → PeerSt) : (s.modPeer m f).now = s.now := rfl
@[simp] theorem State.modPeer_freeCtr (m : Nat) (f : PeerSt → PeerSt) : (s.modPeer m f).freeCtr = s.freeCtr := rfl
@[simp] theorem State.modPeer_pwr (m : Nat) (f : PeerSt → PeerSt) : (s.modPeer m f).pwr = s.pwr := rfl
@[simp] theorem State.modPeer_dom (m : Nat) (f : PeerSt → PeerSt) : (s.modPeer m f).dom = s.dom := rfl
@[simp] theorem State.modPeer_regs (m : Nat) (f : PeerSt → PeerSt) : (s.modPeer m f).regs = s.regs := rfl
@[simp] theorem State.modPeer_beat (m : Nat) (f : PeerSt → PeerSt) : (s.modPeer m f).beat = s.beat := rfl
@[simp] theorem State.modPeer_sched (m : Nat) (f : PeerSt → PeerSt) : (s.modPeer m f).sched = s.sched := rfl
@[simp] theorem State.modPeer_log (m : Nat) (f : PeerSt → PeerSt) : (s.modPeer m f).log = s.log := rfl
@[simp] theorem State.modPeer_flt (m : Nat) (f : PeerSt → PeerSt) : (s.modPeer m f).flt = s.flt := rfl
@[simp] theorem State.modPeer_stg (m : Nat) (f : PeerSt → PeerSt) : (s.modPeer m f).stg = s.stg := rfl
@[simp] theorem State.modPeer_lane (m : Nat) (f : PeerSt → PeerSt) : (s.modPeer m f).lane = s.lane := rfl
@[simp] theorem State.modPeer_ltr (m : Nat) (f : PeerSt → PeerSt) : (s.modPeer m f).ltr = s.ltr := rfl
@[simp] theorem State.modPeer_quad (m : Nat) (f : PeerSt → PeerSt) : (s.modPeer m f).quad = s.quad := rfl
@[simp] theorem State.modPeer_die (m : Nat) (f : PeerSt → PeerSt) : (s.modPeer m f).die = s.die := rfl
@[simp] theorem State.modPeer_port (m : Nat) (f : PeerSt → PeerSt) : (s.modPeer m f).port = s.port := rfl
@[simp] theorem State.modPeer_path (m : Nat) (f : PeerSt → PeerSt) : (s.modPeer m f).path = s.path := rfl
@[simp] theorem State.modPeer_vrd (m : Nat) (f : PeerSt → PeerSt) : (s.modPeer m f).vrd = s.vrd := rfl
@[simp] theorem State.modPeer_reel (m : Nat) (f : PeerSt → PeerSt) : (s.modPeer m f).reel = s.reel := rfl
@[simp] theorem State.modPeer_spl (m : Nat) (f : PeerSt → PeerSt) : (s.modPeer m f).spl = s.spl := rfl
@[simp] theorem State.modPeer_sto (m : Nat) (f : PeerSt → PeerSt) : (s.modPeer m f).sto = s.sto := rfl
@[simp] theorem State.modPeer_env (m : Nat) (f : PeerSt → PeerSt) : (s.modPeer m f).env = s.env := rfl
@[simp] theorem State.modPeer_gon (m : Nat) (f : PeerSt → PeerSt) : (s.modPeer m f).gon = s.gon := rfl
@[simp] theorem State.modPeer_dbg (m : Nat) (f : PeerSt → PeerSt) : (s.modPeer m f).dbg = s.dbg := rfl

/-! ### setSched -/
@[simp] theorem State.setSched_pending (k : Nat) (e : SchedEnt) : (s.setSched k e).pending = s.pending := rfl
@[simp] theorem State.setSched_now (k : Nat) (e : SchedEnt) : (s.setSched k e).now = s.now := rfl
@[simp] theorem State.setSched_freeCtr (k : Nat) (e : SchedEnt) : (s.setSched k e).freeCtr = s.freeCtr := rfl
@[simp] theorem State.setSched_pwr (k : Nat) (e : SchedEnt) : (s.setSched k e).pwr = s.pwr := rfl
@[simp] theorem State.setSched_dom (k : Nat) (e : SchedEnt) : (s.setSched k e).dom = s.dom := rfl
@[simp] theorem State.setSched_regs (k : Nat) (e : SchedEnt) : (s.setSched k e).regs = s.regs := rfl
@[simp] theorem State.setSched_beat (k : Nat) (e : SchedEnt) : (s.setSched k e).beat = s.beat := rfl
@[simp] theorem State.setSched_log (k : Nat) (e : SchedEnt) : (s.setSched k e).log = s.log := rfl
@[simp] theorem State.setSched_flt (k : Nat) (e : SchedEnt) : (s.setSched k e).flt = s.flt := rfl
@[simp] theorem State.setSched_trn (k : Nat) (e : SchedEnt) : (s.setSched k e).trn = s.trn := rfl
@[simp] theorem State.setSched_stg (k : Nat) (e : SchedEnt) : (s.setSched k e).stg = s.stg := rfl
@[simp] theorem State.setSched_lane (k : Nat) (e : SchedEnt) : (s.setSched k e).lane = s.lane := rfl
@[simp] theorem State.setSched_ltr (k : Nat) (e : SchedEnt) : (s.setSched k e).ltr = s.ltr := rfl
@[simp] theorem State.setSched_quad (k : Nat) (e : SchedEnt) : (s.setSched k e).quad = s.quad := rfl
@[simp] theorem State.setSched_die (k : Nat) (e : SchedEnt) : (s.setSched k e).die = s.die := rfl
@[simp] theorem State.setSched_port (k : Nat) (e : SchedEnt) : (s.setSched k e).port = s.port := rfl
@[simp] theorem State.setSched_path (k : Nat) (e : SchedEnt) : (s.setSched k e).path = s.path := rfl
@[simp] theorem State.setSched_vrd (k : Nat) (e : SchedEnt) : (s.setSched k e).vrd = s.vrd := rfl
@[simp] theorem State.setSched_reel (k : Nat) (e : SchedEnt) : (s.setSched k e).reel = s.reel := rfl
@[simp] theorem State.setSched_spl (k : Nat) (e : SchedEnt) : (s.setSched k e).spl = s.spl := rfl
@[simp] theorem State.setSched_sto (k : Nat) (e : SchedEnt) : (s.setSched k e).sto = s.sto := rfl
@[simp] theorem State.setSched_env (k : Nat) (e : SchedEnt) : (s.setSched k e).env = s.env := rfl
@[simp] theorem State.setSched_gon (k : Nat) (e : SchedEnt) : (s.setSched k e).gon = s.gon := rfl
@[simp] theorem State.setSched_dbg (k : Nat) (e : SchedEnt) : (s.setSched k e).dbg = s.dbg := rfl

/-! ### modPwr -/
@[simp] theorem State.modPwr_pending (f : PwrSt → PwrSt) : (s.modPwr f).pending = s.pending := rfl
@[simp] theorem State.modPwr_now (f : PwrSt → PwrSt) : (s.modPwr f).now = s.now := rfl
@[simp] theorem State.modPwr_freeCtr (f : PwrSt → PwrSt) : (s.modPwr f).freeCtr = s.freeCtr := rfl
@[simp] theorem State.modPwr_dom (f : PwrSt → PwrSt) : (s.modPwr f).dom = s.dom := rfl
@[simp] theorem State.modPwr_regs (f : PwrSt → PwrSt) : (s.modPwr f).regs = s.regs := rfl
@[simp] theorem State.modPwr_beat (f : PwrSt → PwrSt) : (s.modPwr f).beat = s.beat := rfl
@[simp] theorem State.modPwr_sched (f : PwrSt → PwrSt) : (s.modPwr f).sched = s.sched := rfl
@[simp] theorem State.modPwr_log (f : PwrSt → PwrSt) : (s.modPwr f).log = s.log := rfl
@[simp] theorem State.modPwr_flt (f : PwrSt → PwrSt) : (s.modPwr f).flt = s.flt := rfl
@[simp] theorem State.modPwr_trn (f : PwrSt → PwrSt) : (s.modPwr f).trn = s.trn := rfl
@[simp] theorem State.modPwr_stg (f : PwrSt → PwrSt) : (s.modPwr f).stg = s.stg := rfl
@[simp] theorem State.modPwr_lane (f : PwrSt → PwrSt) : (s.modPwr f).lane = s.lane := rfl
@[simp] theorem State.modPwr_ltr (f : PwrSt → PwrSt) : (s.modPwr f).ltr = s.ltr := rfl
@[simp] theorem State.modPwr_quad (f : PwrSt → PwrSt) : (s.modPwr f).quad = s.quad := rfl
@[simp] theorem State.modPwr_die (f : PwrSt → PwrSt) : (s.modPwr f).die = s.die := rfl
@[simp] theorem State.modPwr_port (f : PwrSt → PwrSt) : (s.modPwr f).port = s.port := rfl
@[simp] theorem State.modPwr_path (f : PwrSt → PwrSt) : (s.modPwr f).path = s.path := rfl
@[simp] theorem State.modPwr_vrd (f : PwrSt → PwrSt) : (s.modPwr f).vrd = s.vrd := rfl
@[simp] theorem State.modPwr_reel (f : PwrSt → PwrSt) : (s.modPwr f).reel = s.reel := rfl
@[simp] theorem State.modPwr_spl (f : PwrSt → PwrSt) : (s.modPwr f).spl = s.spl := rfl
@[simp] theorem State.modPwr_sto (f : PwrSt → PwrSt) : (s.modPwr f).sto = s.sto := rfl
@[simp] theorem State.modPwr_env (f : PwrSt → PwrSt) : (s.modPwr f).env = s.env := rfl
@[simp] theorem State.modPwr_gon (f : PwrSt → PwrSt) : (s.modPwr f).gon = s.gon := rfl
@[simp] theorem State.modPwr_dbg (f : PwrSt → PwrSt) : (s.modPwr f).dbg = s.dbg := rfl

/-! ### modDbg -/
@[simp] theorem State.modDbg_pending (f : DbgSt → DbgSt) : (s.modDbg f).pending = s.pending := rfl
@[simp] theorem State.modDbg_now (f : DbgSt → DbgSt) : (s.modDbg f).now = s.now := rfl
@[simp] theorem State.modDbg_freeCtr (f : DbgSt → DbgSt) : (s.modDbg f).freeCtr = s.freeCtr := rfl
@[simp] theorem State.modDbg_pwr (f : DbgSt → DbgSt) : (s.modDbg f).pwr = s.pwr := rfl
@[simp] theorem State.modDbg_dom (f : DbgSt → DbgSt) : (s.modDbg f).dom = s.dom := rfl
@[simp] theorem State.modDbg_regs (f : DbgSt → DbgSt) : (s.modDbg f).regs = s.regs := rfl
@[simp] theorem State.modDbg_beat (f : DbgSt → DbgSt) : (s.modDbg f).beat = s.beat := rfl
@[simp] theorem State.modDbg_sched (f : DbgSt → DbgSt) : (s.modDbg f).sched = s.sched := rfl
@[simp] theorem State.modDbg_log (f : DbgSt → DbgSt) : (s.modDbg f).log = s.log := rfl
@[simp] theorem State.modDbg_flt (f : DbgSt → DbgSt) : (s.modDbg f).flt = s.flt := rfl
@[simp] theorem State.modDbg_trn (f : DbgSt → DbgSt) : (s.modDbg f).trn = s.trn := rfl
@[simp] theorem State.modDbg_stg (f : DbgSt → DbgSt) : (s.modDbg f).stg = s.stg := rfl
@[simp] theorem State.modDbg_lane (f : DbgSt → DbgSt) : (s.modDbg f).lane = s.lane := rfl
@[simp] theorem State.modDbg_ltr (f : DbgSt → DbgSt) : (s.modDbg f).ltr = s.ltr := rfl
@[simp] theorem State.modDbg_quad (f : DbgSt → DbgSt) : (s.modDbg f).quad = s.quad := rfl
@[simp] theorem State.modDbg_die (f : DbgSt → DbgSt) : (s.modDbg f).die = s.die := rfl
@[simp] theorem State.modDbg_port (f : DbgSt → DbgSt) : (s.modDbg f).port = s.port := rfl
@[simp] theorem State.modDbg_path (f : DbgSt → DbgSt) : (s.modDbg f).path = s.path := rfl
@[simp] theorem State.modDbg_vrd (f : DbgSt → DbgSt) : (s.modDbg f).vrd = s.vrd := rfl
@[simp] theorem State.modDbg_reel (f : DbgSt → DbgSt) : (s.modDbg f).reel = s.reel := rfl
@[simp] theorem State.modDbg_spl (f : DbgSt → DbgSt) : (s.modDbg f).spl = s.spl := rfl
@[simp] theorem State.modDbg_sto (f : DbgSt → DbgSt) : (s.modDbg f).sto = s.sto := rfl
@[simp] theorem State.modDbg_env (f : DbgSt → DbgSt) : (s.modDbg f).env = s.env := rfl
@[simp] theorem State.modDbg_gon (f : DbgSt → DbgSt) : (s.modDbg f).gon = s.gon := rfl

/-! ### setReg -/
@[simp] theorem State.setReg_pending (a : Nat) (v : Word) : (s.setReg a v).pending = s.pending := rfl
@[simp] theorem State.setReg_now (a : Nat) (v : Word) : (s.setReg a v).now = s.now := rfl
@[simp] theorem State.setReg_freeCtr (a : Nat) (v : Word) : (s.setReg a v).freeCtr = s.freeCtr := rfl
@[simp] theorem State.setReg_pwr (a : Nat) (v : Word) : (s.setReg a v).pwr = s.pwr := rfl
@[simp] theorem State.setReg_dom (a : Nat) (v : Word) : (s.setReg a v).dom = s.dom := rfl
@[simp] theorem State.setReg_beat (a : Nat) (v : Word) : (s.setReg a v).beat = s.beat := rfl
@[simp] theorem State.setReg_sched (a : Nat) (v : Word) : (s.setReg a v).sched = s.sched := rfl
@[simp] theorem State.setReg_log (a : Nat) (v : Word) : (s.setReg a v).log = s.log := rfl
@[simp] theorem State.setReg_flt (a : Nat) (v : Word) : (s.setReg a v).flt = s.flt := rfl
@[simp] theorem State.setReg_trn (a : Nat) (v : Word) : (s.setReg a v).trn = s.trn := rfl
@[simp] theorem State.setReg_stg (a : Nat) (v : Word) : (s.setReg a v).stg = s.stg := rfl
@[simp] theorem State.setReg_lane (a : Nat) (v : Word) : (s.setReg a v).lane = s.lane := rfl
@[simp] theorem State.setReg_ltr (a : Nat) (v : Word) : (s.setReg a v).ltr = s.ltr := rfl
@[simp] theorem State.setReg_quad (a : Nat) (v : Word) : (s.setReg a v).quad = s.quad := rfl
@[simp] theorem State.setReg_die (a : Nat) (v : Word) : (s.setReg a v).die = s.die := rfl
@[simp] theorem State.setReg_port (a : Nat) (v : Word) : (s.setReg a v).port = s.port := rfl
@[simp] theorem State.setReg_path (a : Nat) (v : Word) : (s.setReg a v).path = s.path := rfl
@[simp] theorem State.setReg_vrd (a : Nat) (v : Word) : (s.setReg a v).vrd = s.vrd := rfl
@[simp] theorem State.setReg_reel (a : Nat) (v : Word) : (s.setReg a v).reel = s.reel := rfl
@[simp] theorem State.setReg_spl (a : Nat) (v : Word) : (s.setReg a v).spl = s.spl := rfl
@[simp] theorem State.setReg_sto (a : Nat) (v : Word) : (s.setReg a v).sto = s.sto := rfl
@[simp] theorem State.setReg_env (a : Nat) (v : Word) : (s.setReg a v).env = s.env := rfl
@[simp] theorem State.setReg_gon (a : Nat) (v : Word) : (s.setReg a v).gon = s.gon := rfl
@[simp] theorem State.setReg_dbg (a : Nat) (v : Word) : (s.setReg a v).dbg = s.dbg := rfl

/-! ### at -/
@[simp] theorem State.at_pending (t : Nat) : (s.at t).pending = s.pending := rfl
@[simp] theorem State.at_freeCtr (t : Nat) : (s.at t).freeCtr = s.freeCtr := rfl
@[simp] theorem State.at_pwr (t : Nat) : (s.at t).pwr = s.pwr := rfl
@[simp] theorem State.at_dom (t : Nat) : (s.at t).dom = s.dom := rfl
@[simp] theorem State.at_regs (t : Nat) : (s.at t).regs = s.regs := rfl
@[simp] theorem State.at_beat (t : Nat) : (s.at t).beat = s.beat := rfl
@[simp] theorem State.at_sched (t : Nat) : (s.at t).sched = s.sched := rfl
@[simp] theorem State.at_log (t : Nat) : (s.at t).log = s.log := rfl
@[simp] theorem State.at_flt (t : Nat) : (s.at t).flt = s.flt := rfl
@[simp] theorem State.at_trn (t : Nat) : (s.at t).trn = s.trn := rfl
@[simp] theorem State.at_stg (t : Nat) : (s.at t).stg = s.stg := rfl
@[simp] theorem State.at_lane (t : Nat) : (s.at t).lane = s.lane := rfl
@[simp] theorem State.at_ltr (t : Nat) : (s.at t).ltr = s.ltr := rfl
@[simp] theorem State.at_quad (t : Nat) : (s.at t).quad = s.quad := rfl
@[simp] theorem State.at_die (t : Nat) : (s.at t).die = s.die := rfl
@[simp] theorem State.at_port (t : Nat) : (s.at t).port = s.port := rfl
@[simp] theorem State.at_path (t : Nat) : (s.at t).path = s.path := rfl
@[simp] theorem State.at_vrd (t : Nat) : (s.at t).vrd = s.vrd := rfl
@[simp] theorem State.at_reel (t : Nat) : (s.at t).reel = s.reel := rfl
@[simp] theorem State.at_spl (t : Nat) : (s.at t).spl = s.spl := rfl
@[simp] theorem State.at_sto (t : Nat) : (s.at t).sto = s.sto := rfl
@[simp] theorem State.at_env (t : Nat) : (s.at t).env = s.env := rfl
@[simp] theorem State.at_gon (t : Nat) : (s.at t).gon = s.gon := rfl
@[simp] theorem State.at_dbg (t : Nat) : (s.at t).dbg = s.dbg := rfl

/-! ### Elements after a change of an element -/
theorem State.laneAt_modLane (k j : Nat) (f : LaneSt → LaneSt) :
    (s.modLane k f).laneAt j = if j = k then f (s.laneAt k) else s.laneAt j := Tbl.get_set ..
@[simp] theorem State.laneAt_modLane_self (k : Nat) (f : LaneSt → LaneSt) : (s.modLane k f).laneAt k = f (s.laneAt k) := by
  simp [State.laneAt_modLane]
theorem State.laneAt_modLane_ne {k j : Nat} (f : LaneSt → LaneSt) (h : j ≠ k) : (s.modLane k f).laneAt j = s.laneAt j := by
  simp [State.laneAt_modLane, h]
theorem State.ltrAt_modLtr (k j : Nat) (f : LaneTr → LaneTr) :
    (s.modLtr k f).ltrAt j = if j = k then f (s.ltrAt k) else s.ltrAt j := Tbl.get_set ..
@[simp] theorem State.ltrAt_modLtr_self (k : Nat) (f : LaneTr → LaneTr) : (s.modLtr k f).ltrAt k = f (s.ltrAt k) := by
  simp [State.ltrAt_modLtr]
theorem State.ltrAt_modLtr_ne {k j : Nat} (f : LaneTr → LaneTr) (h : j ≠ k) : (s.modLtr k f).ltrAt j = s.ltrAt j := by
  simp [State.ltrAt_modLtr, h]
theorem State.quadAt_modQuad (k j : Nat) (f : QuadSt → QuadSt) :
    (s.modQuad k f).quadAt j = if j = k then f (s.quadAt k) else s.quadAt j := Tbl.get_set ..
@[simp] theorem State.quadAt_modQuad_self (k : Nat) (f : QuadSt → QuadSt) : (s.modQuad k f).quadAt k = f (s.quadAt k) := by
  simp [State.quadAt_modQuad]
theorem State.quadAt_modQuad_ne {k j : Nat} (f : QuadSt → QuadSt) (h : j ≠ k) : (s.modQuad k f).quadAt j = s.quadAt j := by
  simp [State.quadAt_modQuad, h]
theorem State.dieAt_modDie (k j : Nat) (f : DieSt → DieSt) :
    (s.modDie k f).dieAt j = if j = k then f (s.dieAt k) else s.dieAt j := Tbl.get_set ..
@[simp] theorem State.dieAt_modDie_self (k : Nat) (f : DieSt → DieSt) : (s.modDie k f).dieAt k = f (s.dieAt k) := by
  simp [State.dieAt_modDie]
theorem State.dieAt_modDie_ne {k j : Nat} (f : DieSt → DieSt) (h : j ≠ k) : (s.modDie k f).dieAt j = s.dieAt j := by
  simp [State.dieAt_modDie, h]
theorem State.portAt_modPort (k j : Nat) (f : PortSt → PortSt) :
    (s.modPort k f).portAt j = if j = k then f (s.portAt k) else s.portAt j := Tbl.get_set ..
@[simp] theorem State.portAt_modPort_self (k : Nat) (f : PortSt → PortSt) : (s.modPort k f).portAt k = f (s.portAt k) := by
  simp [State.portAt_modPort]
theorem State.portAt_modPort_ne {k j : Nat} (f : PortSt → PortSt) (h : j ≠ k) : (s.modPort k f).portAt j = s.portAt j := by
  simp [State.portAt_modPort, h]
theorem State.pathAt_modPath (k j : Nat) (f : PathSt → PathSt) :
    (s.modPath k f).pathAt j = if j = k then f (s.pathAt k) else s.pathAt j := Tbl.get_set ..
@[simp] theorem State.pathAt_modPath_self (k : Nat) (f : PathSt → PathSt) : (s.modPath k f).pathAt k = f (s.pathAt k) := by
  simp [State.pathAt_modPath]
theorem State.pathAt_modPath_ne {k j : Nat} (f : PathSt → PathSt) (h : j ≠ k) : (s.modPath k f).pathAt j = s.pathAt j := by
  simp [State.pathAt_modPath, h]
theorem State.pairAt_modPair (k j : Nat) (f : PairSt → PairSt) :
    (s.modPair k f).pairAt j = if j = k then f (s.pairAt k) else s.pairAt j := Tbl.get_set ..
@[simp] theorem State.pairAt_modPair_self (k : Nat) (f : PairSt → PairSt) : (s.modPair k f).pairAt k = f (s.pairAt k) := by
  simp [State.pairAt_modPair]
theorem State.pairAt_modPair_ne {k j : Nat} (f : PairSt → PairSt) (h : j ≠ k) : (s.modPair k f).pairAt j = s.pairAt j := by
  simp [State.pairAt_modPair, h]
theorem State.strmAt_modStrm (k j : Nat) (f : StrmSt → StrmSt) :
    (s.modStrm k f).strmAt j = if j = k then f (s.strmAt k) else s.strmAt j := Tbl.get_set ..
@[simp] theorem State.strmAt_modStrm_self (k : Nat) (f : StrmSt → StrmSt) : (s.modStrm k f).strmAt k = f (s.strmAt k) := by
  simp [State.strmAt_modStrm]
theorem State.strmAt_modStrm_ne {k j : Nat} (f : StrmSt → StrmSt) (h : j ≠ k) : (s.modStrm k f).strmAt j = s.strmAt j := by
  simp [State.strmAt_modStrm, h]
theorem State.hbmAt_modHbm (k j : Nat) (f : HbmSt → HbmSt) :
    (s.modHbm k f).hbmAt j = if j = k then f (s.hbmAt k) else s.hbmAt j := Tbl.get_set ..
@[simp] theorem State.hbmAt_modHbm_self (k : Nat) (f : HbmSt → HbmSt) : (s.modHbm k f).hbmAt k = f (s.hbmAt k) := by
  simp [State.hbmAt_modHbm]
theorem State.hbmAt_modHbm_ne {k j : Nat} (f : HbmSt → HbmSt) (h : j ≠ k) : (s.modHbm k f).hbmAt j = s.hbmAt j := by
  simp [State.hbmAt_modHbm, h]
theorem State.driveAt_modDrive (k j : Nat) (f : DriveSt → DriveSt) :
    (s.modDrive k f).driveAt j = if j = k then f (s.driveAt k) else s.driveAt j := Tbl.get_set ..
@[simp] theorem State.driveAt_modDrive_self (k : Nat) (f : DriveSt → DriveSt) : (s.modDrive k f).driveAt k = f (s.driveAt k) := by
  simp [State.driveAt_modDrive]
theorem State.driveAt_modDrive_ne {k j : Nat} (f : DriveSt → DriveSt) (h : j ≠ k) : (s.modDrive k f).driveAt j = s.driveAt j := by
  simp [State.driveAt_modDrive, h]
theorem State.keyAt_modKey (k j : Nat) (f : KeySt → KeySt) :
    (s.modKey k f).keyAt j = if j = k then f (s.keyAt k) else s.keyAt j := Tbl.get_set ..
@[simp] theorem State.keyAt_modKey_self (k : Nat) (f : KeySt → KeySt) : (s.modKey k f).keyAt k = f (s.keyAt k) := by
  simp [State.keyAt_modKey]
theorem State.keyAt_modKey_ne {k j : Nat} (f : KeySt → KeySt) (h : j ≠ k) : (s.modKey k f).keyAt j = s.keyAt j := by
  simp [State.keyAt_modKey, h]
theorem State.coreAt_modCore (k j : Nat) (f : CoreSt → CoreSt) :
    (s.modCore k f).coreAt j = if j = k then f (s.coreAt k) else s.coreAt j := Tbl.get_set ..
@[simp] theorem State.coreAt_modCore_self (k : Nat) (f : CoreSt → CoreSt) : (s.modCore k f).coreAt k = f (s.coreAt k) := by
  simp [State.coreAt_modCore]
theorem State.coreAt_modCore_ne {k j : Nat} (f : CoreSt → CoreSt) (h : j ≠ k) : (s.modCore k f).coreAt j = s.coreAt j := by
  simp [State.coreAt_modCore, h]
theorem State.mbAt_modMb (k j : Nat) (f : MbSt → MbSt) :
    (s.modMb k f).mbAt j = if j = k then f (s.mbAt k) else s.mbAt j := Tbl.get_set ..
@[simp] theorem State.mbAt_modMb_self (k : Nat) (f : MbSt → MbSt) : (s.modMb k f).mbAt k = f (s.mbAt k) := by
  simp [State.mbAt_modMb]
theorem State.mbAt_modMb_ne {k j : Nat} (f : MbSt → MbSt) (h : j ≠ k) : (s.modMb k f).mbAt j = s.mbAt j := by
  simp [State.mbAt_modMb, h]
theorem State.unitAt_modUnit (k j : Nat) (f : UnitSt → UnitSt) :
    (s.modUnit k f).unitAt j = if j = k then f (s.unitAt k) else s.unitAt j := Tbl.get_set ..
@[simp] theorem State.unitAt_modUnit_self (k : Nat) (f : UnitSt → UnitSt) : (s.modUnit k f).unitAt k = f (s.unitAt k) := by
  simp [State.unitAt_modUnit]
theorem State.unitAt_modUnit_ne {k j : Nat} (f : UnitSt → UnitSt) (h : j ≠ k) : (s.modUnit k f).unitAt j = s.unitAt j := by
  simp [State.unitAt_modUnit, h]
theorem State.domAt_modDom (k j : Nat) (f : DomSt → DomSt) :
    (s.modDom k f).domAt j = if j = k then f (s.domAt k) else s.domAt j := Tbl.get_set ..
@[simp] theorem State.domAt_modDom_self (k : Nat) (f : DomSt → DomSt) : (s.modDom k f).domAt k = f (s.domAt k) := by
  simp [State.domAt_modDom]
theorem State.domAt_modDom_ne {k j : Nat} (f : DomSt → DomSt) (h : j ≠ k) : (s.modDom k f).domAt j = s.domAt j := by
  simp [State.domAt_modDom, h]
theorem State.srcAt_modSrc (k j : Nat) (f : SrcSt → SrcSt) :
    (s.modSrc k f).srcAt j = if j = k then f (s.srcAt k) else s.srcAt j := Tbl.get_set ..
@[simp] theorem State.srcAt_modSrc_self (k : Nat) (f : SrcSt → SrcSt) : (s.modSrc k f).srcAt k = f (s.srcAt k) := by
  simp [State.srcAt_modSrc]
theorem State.srcAt_modSrc_ne {k j : Nat} (f : SrcSt → SrcSt) (h : j ≠ k) : (s.modSrc k f).srcAt j = s.srcAt j := by
  simp [State.srcAt_modSrc, h]
theorem State.peerAt_modPeer (k j : Nat) (f : PeerSt → PeerSt) :
    (s.modPeer k f).peerAt j = if j = k then f (s.peerAt k) else s.peerAt j := Tbl.get_set ..
@[simp] theorem State.peerAt_modPeer_self (k : Nat) (f : PeerSt → PeerSt) : (s.modPeer k f).peerAt k = f (s.peerAt k) := by
  simp [State.peerAt_modPeer]
theorem State.peerAt_modPeer_ne {k j : Nat} (f : PeerSt → PeerSt) (h : j ≠ k) : (s.modPeer k f).peerAt j = s.peerAt j := by
  simp [State.peerAt_modPeer, h]
theorem State.schedAt_setSched (k j : Nat) (e : SchedEnt) :
    (s.setSched k e).schedAt j = if j = k then e else s.schedAt j := Tbl.get_set ..
theorem State.reg_setReg (a b : Nat) (v : Word) : (s.setReg a v).reg b = if b = a then v else s.reg b := by
  by_cases h : b = a
  · subst h
    simp [State.reg, State.setReg]
  · have : ¬a = b := fun e => h e.symm
    simp only [State.reg, State.setReg, h, if_false, Tbl.set, Tbl.get]
    split <;> simp [Tbl.find_erase, Tbl.find_insert, h]
theorem State.ctxAt_modCtx (n m c d : Nat) (f : CtxSt → CtxSt) :
    (s.modCtx n c f).ctxAt m d = if m = n ∧ d = c then f (s.ctxAt n c) else s.ctxAt m d := by
  simp only [State.ctxAt, State.modCtx, State.pairAt_modPair]
  by_cases h : m = n
  · subst h
    simp [Tbl.get_set]
  · simp [h]

end Sys2Proof.Machine
end

