-- ==== Sys2Proof/Laws/Reacts.lean ====
section
/-! SUPPORT. What Logbook entries, raisings of fault sources and the settling of a command may change, said once: `Reacts s t`.
Every shared operation of Ripcord and of the Logbook is a `Reacts`; so is the settling at the end of each command. -/

namespace Sys2Proof.Machine

/-! What these reactions may write is blanked out; the rest of each part is what they keep. -/

def BeatSt.kept (x : BeatSt) : BeatSt := { x with preNum := 0, preClk := none }

def PwrSt.kept (x : PwrSt) : PwrSt :=
  { x with fatal := false, fatalSrc := 0, fatalAt := 0, txHiZ := false, clkLost := false, avsRun := false, refSince := 0 }

def DbgSt.kept (x : DbgSt) : DbgSt := { x with lastFrame := 0 }

def LaneSt.kept (x : LaneSt) : LaneSt :=
  { x with txIdle := false, anchor := .search, eligible := false, precTx := false, precRx := false }

def LaneTr.kept (x : LaneTr) : LaneTr := { x with sends := 0 }

def LinkSt.kept (x : LinkSt) : LinkSt := { x with tunnel := 0, rxCount := 0, cells := [], wait := [], tunRx := {} }

def LadderSt.kept (x : LadderSt) : LadderSt := { x with rate := 0, changing := none, hold := none, sends := [] }

def PortSt.kept (x : PortSt) : PortSt := { x with link := x.link.kept, lad := x.lad.kept }

def PathSt.kept (x : PathSt) : PathSt :=
  { x with safe := false, stim := false, dOut := 0, timeline := none, packBits := [], packArr := [], ladStop := false,
           dTrain := 0, upPend := false, holds := [], lostRun := none }

def PairSt.kept (x : PairSt) : PairSt := { x with ctx := {} }

def CtxSt.kept (x : CtxSt) : CtxSt := { x with win := { x.win with cause := 0, causes := 0 } }

def StrmSt.kept (x : StrmSt) : StrmSt := { x with cur := none, evRec := none, staged := [], uncommitted := [], next := 0 }

def HbmSt.kept (x : HbmSt) : HbmSt := { x with selfRefresh := false }

def SplSt.kept (x : SplSt) : SplSt := { x with strm := {}, hbm := {} }

def CoreSt.kept (x : CoreSt) : CoreSt := { x with events := [], waiting := false }

def GonSt.kept (x : GonSt) : GonSt := { x with core := {}, mgmt := { x.mgmt with ibiPend := none } }

/-- `t` is `s` after entries of the Logbook and reactions of Ripcord: everything that these never write stands as it stood. -/
structure Reacts (s t : State) : Prop where
  pending : t.pending = s.pending
  now : t.now = s.now
  freeCtr : t.freeCtr = s.freeCtr
  dom : t.dom = s.dom
  regs : t.regs = s.regs
  sched : t.sched = s.sched
  trn : t.trn = s.trn
  stg : t.stg = s.stg
  quad : t.quad = s.quad
  die : t.die = s.die
  reel : t.reel = s.reel
  sto : t.sto = s.sto
  env : t.env = s.env
  beat : t.beat.kept = s.beat.kept
  pwr : t.pwr.kept = s.pwr.kept
  dbg : t.dbg.kept = s.dbg.kept
  lane : ∀ l, (t.laneAt l).kept = (s.laneAt l).kept
  ltr : ∀ l, (t.ltrAt l).kept = (s.ltrAt l).kept
  port : ∀ ip, (t.portAt ip).kept = (s.portAt ip).kept
  path : ∀ n, (t.pathAt n).kept = (s.pathAt n).kept
  pair : ∀ n, (t.pairAt n).kept = (s.pairAt n).kept
  ctx : ∀ n c, (t.ctxAt n c).kept = (s.ctxAt n c).kept
  spl : t.spl.kept = s.spl.kept
  strm : ∀ k, (t.strmAt k).kept = (s.strmAt k).kept
  hbm : ∀ h, (t.hbmAt h).kept = (s.hbmAt h).kept
  gon : t.gon.kept = s.gon.kept
  core : ∀ c, (t.coreAt c).kept = (s.coreAt c).kept
  log : (∃ l, t.log.ring = l ++ s.log.ring) ∧ t.log.readStatus = s.log.readStatus ∧ t.log.readData = s.log.readData
  flt : (∃ l, t.flt.recs = s.flt.recs ++ l) ∧ t.flt.domReset = s.flt.domReset
  fatal : s.pwr.fatal = true → t.pwr.fatal = true
  clkLost : s.pwr.clkLost = true → t.pwr.clkLost = true
  avsStop : s.pwr.avsRun = false → t.pwr.avsRun = false
  cause : s.flt.resetCause.toNat / 2 ^ 95 = 1 → t.flt.resetCause.toNat / 2 ^ 95 = 1

namespace Reacts

variable {s t u : State}

theorem refl (s : State) : Reacts s s where
  pending := rfl
  now := rfl
  freeCtr := rfl
  dom := rfl
  regs := rfl
  sched := rfl
  trn := rfl
  stg := rfl
  quad := rfl
  die := rfl
  reel := rfl
  sto := rfl
  env := rfl
  beat := rfl
  pwr := rfl
  dbg := rfl
  spl := rfl
  gon := rfl
  lane _ := rfl
  ltr _ := rfl
  port _ := rfl
  path _ := rfl
  pair _ := rfl
  strm _ := rfl
  hbm _ := rfl
  core _ := rfl
  ctx _ _ := rfl
  log := ⟨⟨[], rfl⟩, rfl, rfl⟩
  flt := ⟨⟨[], (List.append_nil _).symm⟩, rfl⟩
  fatal := id
  clkLost := id
  avsStop := id
  cause := id

theorem trans (h : Reacts s t) (g : Reacts t u) : Reacts s u where
  pending := g.pending.trans h.pending
  now := g.now.trans h.now
  freeCtr := g.freeCtr.trans h.freeCtr
  dom := g.dom.trans h.dom
  regs := g.regs.trans h.regs
  sched := g.sched.trans h.sched
  trn := g.trn.trans h.trn
  stg := g.stg.trans h.stg
  quad := g.quad.trans h.quad
  die := g.die.trans h.die
  reel := g.reel.trans h.reel
  sto := g.sto.trans h.sto
  env := g.env.trans h.env
  beat := g.beat.trans h.beat
  pwr := g.pwr.trans h.pwr
  dbg := g.dbg.trans h.dbg
  spl := g.spl.trans h.spl
  gon := g.gon.trans h.gon
  lane l := (g.lane l).trans (h.lane l)
  ltr l := (g.ltr l).trans (h.ltr l)
  port l := (g.port l).trans (h.port l)
  path l := (g.path l).trans (h.path l)
  pair l := (g.pair l).trans (h.pair l)
  strm l := (g.strm l).trans (h.strm l)
  hbm l := (g.hbm l).trans (h.hbm l)
  core l := (g.core l).trans (h.core l)
  ctx n c := (g.ctx n c).trans (h.ctx n c)
  log := by
    obtain ⟨⟨_, a⟩, a1, a2⟩ := h.log
    obtain ⟨⟨_, b⟩, b1, b2⟩ := g.log
    exact ⟨⟨_, by rw [b, a, List.append_assoc]⟩, b1.trans a1, b2.trans a2⟩
  flt := by
    obtain ⟨⟨_, a⟩, a1⟩ := h.flt
    obtain ⟨⟨_, b⟩, b1⟩ := g.flt
    exact ⟨⟨_, by rw [b, a, List.append_assoc]⟩, b1.trans a1⟩
  fatal := g.fatal ∘ h.fatal
  clkLost := g.clkLost ∘ h.clkLost
  avsStop := g.avsStop ∘ h.avsStop
  cause := g.cause ∘ h.cause

theorem ite {c : Prop} [Decidable c] {a b : State} (h : Reacts s a) (g : Reacts s b) : Reacts s (if c then a else b) := by
  split
  · exact h
  · exact g

/-- A further change made on a condition. -/
theorem thenIf {c : Prop} [Decidable c] {a b : State} (h : Reacts s b) (g : Reacts b a) : Reacts s (if c then a else b) :=
  ite (h.trans g) h

theorem each {l : List Nat} {f : Nat → State → State} (h : ∀ n u, Reacts u (f n u)) (g : Reacts s t) :
    Reacts s (Machine.each l f t) := by
  unfold Machine.each
  induction l generalizing t with
  | nil => exact g
  | cons n l ih => exact ih (g.trans (h n t))

/-! ### Changes of one part -/

theorem setLog (l : LogSt) (h : (∃ r, l.ring = r ++ s.log.ring) ∧ l.readStatus = s.log.readStatus ∧ l.readData = s.log.readData) :
    Reacts s { s with log := l } :=
  { Reacts.refl s with log := h }

theorem setFlt (l : FltSt) (h : (∃ r, l.recs = s.flt.recs ++ r) ∧ l.domReset = s.flt.domReset)
    (c : l.resetCause = s.flt.resetCause) : Reacts s { s with flt := l } :=
  { Reacts.refl s with flt := h, cause := fun e => (congrArg (fun b : BitVec 96 => b.toNat / 2 ^ 95) c).trans e }

theorem modSrc (n : Nat) (f : SrcSt → SrcSt) : Reacts s (s.modSrc n f) := setFlt _ ⟨⟨[], (List.append_nil _).symm⟩, rfl⟩ rfl

theorem setBeat (n : Nat) (c : Option Nat) : Reacts s { s with beat := { s.beat with preNum := n, preClk := c } } :=
  { Reacts.refl s with beat := rfl }

theorem modLane (l : Nat) (f : LaneSt → LaneSt) (h : ∀ x, (f x).kept = x.kept) : Reacts s (s.modLane l f) :=
  { Reacts.refl s with
    lane := fun j => by
      rw [State.laneAt_modLane]
      split
      · next e => subst e; exact h _
      · rfl }

theorem sends (l n : Nat) : Reacts s (s.modLtr l (fun x => { x with sends := n })) :=
  { Reacts.refl s with
    ltr := fun j => by
      rw [State.ltrAt_modLtr]
      split
      · next h => subst h; rfl
      · rfl }

theorem modPort (n : Nat) (f : PortSt → PortSt) (h : ∀ x, (f x).kept = x.kept) : Reacts s (s.modPort n f) :=
  { Reacts.refl s with
    port := fun j => by
      rw [State.portAt_modPort]
      split
      · next e => subst e; exact h _
      · rfl }

theorem modLink (n : Nat) (f : LinkSt → LinkSt) (h : ∀ l, (f l).kept = l.kept) : Reacts s (s.modLink n f) :=
  modPort n _ (fun x => by simp only [PortSt.kept, h])

theorem modLad (n : Nat) (f : LadderSt → LadderSt) (h : ∀ l, (f l).kept = l.kept) : Reacts s (s.modLad n f) :=
  modPort n _ (fun x => by simp only [PortSt.kept, h])

theorem modPath (n : Nat) (f : PathSt → PathSt) (h : ∀ p, (f p).kept = p.kept) : Reacts s (s.modPath n f) :=
  { Reacts.refl s with
    path := fun j => by
      rw [State.pathAt_modPath]
      split
      · next e => subst e; exact h _
      · rfl }

theorem takeWin (n c k : Nat) : Reacts s (s.modCtx n c (fun x => { x with win := x.win.take k })) :=
  { Reacts.refl s with
    pair := fun j => by
      rw [State.modCtx, State.pairAt_modPair]
      split
      · next e => subst e; rfl
      · rfl
    ctx := fun j d => by
      rw [State.ctxAt_modCtx]
      split
      · next e => obtain ⟨rfl, rfl⟩ := e; rfl
      · rfl }

theorem modStrm (k : Nat) (f : StrmSt → StrmSt) (h : ∀ x, (f x).kept = x.kept) : Reacts s (s.modStrm k f) :=
  { Reacts.refl s with
    spl := rfl
    strm := fun j => by
      rw [State.strmAt_modStrm]
      split
      · next e => subst e; exact h _
      · rfl }

theorem selfRefresh (k : Nat) (b : Bool) : Reacts s (s.modHbm k (fun x => { x with selfRefresh := b })) :=
  { Reacts.refl s with
    spl := rfl
    hbm := fun j => by
      rw [State.hbmAt_modHbm]
      split
      · next e => subst e; rfl
      · rfl }

theorem modCore (k : Nat) (f : CoreSt → CoreSt) (h : ∀ x, (f x).kept = x.kept) : Reacts s (s.modCore k f) :=
  { Reacts.refl s with
    gon := rfl
    core := fun j => by
      rw [State.coreAt_modCore]
      split
      · next e => subst e; exact h _
      · rfl }

theorem ibi (b : Option Byte) : Reacts s (s.modGon (fun g => { g with mgmt := { g.mgmt with ibiPend := b } })) :=
  { Reacts.refl s with gon := rfl }

/-! ### The Logbook -/

theorem stamped : Reacts s s.stamped := by
  unfold State.stamped
  split
  · exact setBeat _ _
  · exact refl s

theorem logPut (r : LogReq) : Reacts s (s.logPut r) := stamped.trans (setLog _ ⟨⟨_, rfl⟩, rfl, rfl⟩)

theorem logEvent (r : LogReq) : Reacts s (s.logEvent r) := by
  unfold State.logEvent
  split
  · exact logPut r
  · split
    · exact { Reacts.refl s with
        log := ⟨⟨[], rfl⟩, rfl, rfl⟩
        flt := ⟨⟨[], (List.append_nil _).symm⟩, rfl⟩ }
    · exact setLog _ ⟨⟨[], rfl⟩, rfl, rfl⟩

theorem commit {r : LogReq} (h : s.commit r = some t) : Reacts s t := by
  unfold State.commit at h
  split at h
  · cases h; exact logPut r
  · cases h

/-! ### The path safe state -/

theorem sendFlit (ip : Nat) (f : TxFlit) : Reacts s (s.sendFlit ip f) := modLink _ _ (by intro; rfl)

theorem sendFault (n : Nat) (r : FaultRep) : Reacts s (s.sendFault n r) := stamped.trans (sendFlit _ _)

theorem reportCells (n : Nat) (r : FaultRep) : Reacts s (Machine.reportCells n r s) := by
  unfold Machine.reportCells
  dsimp only
  split
  · exact ((modLink _ _ (by intro; rfl)).trans (sendFault _ _)).trans (logEvent _)
  · exact sendFault _ _

theorem reportRun (n : Nat) (r : FaultRep) : Reacts s (Machine.reportRun n r s) := by
  unfold Machine.reportRun
  split
  · exact refl s
  · exact ((modPath _ _ (by intro; rfl)).trans (sendFault _ _)).trans (logEvent _)

theorem addHold (n : Nat) (h : Hold) : Reacts s (s.addHold n h) :=
  modPath _ _ (by intro; rfl)

theorem poisonPair (n c : Nat) : Reacts s (Machine.poisonPair n c s) :=
  each (fun _ _ => ite (takeWin _ _ _) (refl _)) (refl s)

theorem flagSafe (n : Nat) : Reacts s (Machine.flagSafe n s) :=
  each (fun _ _ => modStrm _ _ (by intro; rfl)) (refl s)

theorem endStim (n : Nat) : Reacts s (Machine.endStim n s) := ite (modPath _ _ (by intro; rfl)) (refl _)

theorem safeDatapath (n : Nat) : Reacts s (Machine.safeDatapath n s) := by
  unfold Machine.safeDatapath
  dsimp only
  refine Reacts.trans ?_ (flagSafe _)
  refine Reacts.trans ?_ (poisonPair _ _)
  have h1 : ∀ {a : State} (l : List Nat), Reacts a (Machine.each l (fun l s => s.modLane l (fun x => { x with txIdle := true })) a) :=
    fun l => each (fun _ _ => modLane _ _ (by intro; rfl)) (refl _)
  refine thenIf (thenIf (Reacts.trans (Reacts.trans (thenIf (h1 _) (h1 _)) (modPath _ _ (by intro; rfl))) (endStim _))
    (modLink _ _ (by intro; rfl))) ?_
  exact each (fun _ _ => (sends _ _).trans (modLane _ _ (by intro; rfl))) (modLad _ _ (by intro; rfl))

theorem enterSafe (n : Nat) (h : Hold) (r : FaultRep) (b : Bool) : Reacts s (Machine.enterSafe n h r b s) := by
  unfold Machine.enterSafe
  dsimp only
  refine ite (refl _) ?_
  refine (addHold _ _).trans (ite (ite (reportCells _ _) (refl _)) ?_)
  refine Reacts.trans ?_ (logEvent _)
  exact (safeDatapath _).trans (ite ((ite (sendFault _ _) (reportCells _ _)).trans (reportRun _ _)) (refl _))

/-! ### Raisings -/

theorem deliver (e : Nat) : Reacts s (Machine.deliver e s) :=
  each (fun _ _ => ite (modCore _ _ (by intro; rfl)) (refl _)) (refl s)

theorem discardStaging : Reacts s (Machine.discardStaging s) :=
  (each (fun _ _ => modStrm _ _ (by intro; rfl)) (refl s)).trans (setLog _ ⟨⟨[], rfl⟩, rfl, rfl⟩)

theorem fatalPath (src n : Nat) : Reacts s (Machine.fatalPath src n s) :=
  (enterSafe _ _ _ _).trans (ite (sendFault _ _) (refl _))

theorem goFatal (src : Nat) : Reacts s (Machine.goFatal src s) := by
  unfold Machine.goFatal
  dsimp only
  refine ite (refl _) (Reacts.trans ?_ discardStaging)
  exact each (fun _ _ => fatalPath _ _) { Reacts.refl s with pwr := rfl, fatal := fun _ => rfl }

theorem setLost (c : Bool) (n m : Nat) (r : BitVec 96) (h : r.toNat / 2 ^ 95 = 1) :
    Reacts s { s with pwr := { s.pwr with clkLost := true, avsRun := false, refSince := m },
                      dbg := if c then s.dbg else { s.dbg with lastFrame := n }, flt := { s.flt with resetCause := r } } :=
  { Reacts.refl s with
    pwr := rfl
    dbg := by cases c <;> rfl
    clkLost := fun _ => rfl
    avsStop := fun _ => rfl
    cause := fun _ => h }

/-- The word that a clock loss leaves in the reset cause has its valid bit (R373). -/
theorem causeSet (src : Nat) (t : BitVec 64) :
    (BitVec.ofNat 96 (2 ^ 95 + src % 4096 * 2 ^ 64 + t.toNat)).toNat / 2 ^ 95 = 1 := by
  have h := t.isLt
  have g : src % 4096 < 4096 := Nat.mod_lt _ (by decide)
  rw [BitVec.toNat_ofNat, Nat.mod_eq_of_lt (by omega)]
  omega


theorem clockLoss (src : Nat) : Reacts s (Machine.clockLoss src s) := by
  have h1 : ∀ u, Reacts u (allIdle u) := fun u => each (fun _ _ => modLane _ _ (by intro; rfl)) (refl u)
  have h2 : ∀ u, Reacts u (Machine.each [0, 1, 2, 3] (fun h s => s.modHbm h (fun x => { x with selfRefresh := true })) u) :=
    fun u => each (fun _ _ => selfRefresh _ _) (refl u)
  exact ((stamped.trans (h1 _)).trans (h2 _)).trans (setLost _ _ _ _ (causeSet _ _))

theorem record (src cls escal : Nat) (line : Bool) (reaction : Nat) (tg : BitVec 32) (detail : Nat) :
    Reacts s (s.record src cls escal line reaction tg detail) := by
  unfold State.record
  dsimp only
  refine Reacts.trans ?_ (logEvent _)
  refine (stamped.trans (modSrc src (fun x => { x with merged := 0, lastRec := some s.now }))).trans (setFlt _ ⟨?_, rfl⟩ rfl)
  split
  · exact ⟨[], (List.append_nil _).symm⟩
  · exact ⟨_, rfl⟩

theorem raiseCls (src cls escal : Nat) (event : Bool) (cands : List Nat) (detail : Nat) :
    Reacts s (Machine.raiseCls src cls escal event cands detail s) := by
  unfold Machine.raiseCls
  dsimp only
  refine ite (modSrc _ _) (Reacts.trans ?_ (deliver _))
  refine thenIf (thenIf (Reacts.trans ?_ (each (fun _ _ => enterSafe _ _ _ _) (refl _))) (goFatal _)) (clockLoss _)
  exact (record _ _ _ _ _ _ _).trans (modSrc _ _)

theorem overflowCheck (b : State) : Reacts s (Machine.overflowCheck b s) :=
  ite (ite (raiseCls _ _ _ _ _ _) (ite (raiseCls _ _ _ _ _ _) (refl s))) (refl s)

theorem detect (src : Nat) (st : Option Nat) (ev : Bool) (cands : List Nat) (d : Nat) :
    Reacts s (Machine.detect src st ev cands d s) := by
  unfold Machine.detect
  dsimp only
  have h : ∀ e, Reacts s (Machine.overflowCheck s (Machine.raiseCls src
      (max (srcMin src) (st.getD (s.classReg src))) e ev cands d s)) := fun e => (raiseCls _ _ _ _ _ _).trans (overflowCheck _)
  exact ite (refl _) (ite (ite (refl _) (h 0)) (ite (refl _) (ite ((raiseCls _ _ _ _ _ _).trans (overflowCheck _)) (refl _))))

theorem raiseD (src d : Nat) : Reacts s (Machine.raiseD src d s) := detect _ _ _ _ _

theorem raise (src : Nat) : Reacts s (Machine.raise src s) := raiseD _ _

theorem raiseGroup (src : Nat) (b : Option Nat) : Reacts s (Machine.raiseGroup src b s) := by
  unfold Machine.raiseGroup
  dsimp only
  split
  · exact Reacts.trans (modSrc _ _) (ite (detect _ _ _ _ _) (refl _))
  · exact ite (detect _ _ _ _ _) (refl _)

theorem logRefused : Reacts s (Machine.logRefused s) := raise _

/-! ### The end of a condition -/

theorem unhold (n : Nat) (h : Hold) : Reacts s (Machine.unhold n h s) :=
  ite (modPath _ _ (by intro; rfl)) (refl _)

/-- Clearing a source that is no source of a path slot. -/
theorem clearSource {src : Nat} (h : ¬(1408 ≤ src ∧ src < 1920 ∧ (src - 1408) % 16 = 8)) : Reacts s (Machine.clearSource src s) := by
  unfold Machine.clearSource
  simp only [h, if_false]
  exact each (fun _ _ => unhold _ _) (modSrc _ _)

theorem condEnd {src : Nat} (h : ¬(1408 ≤ src ∧ src < 1920 ∧ (src - 1408) % 16 = 8)) : Reacts s (Machine.condEnd src s) := by
  unfold Machine.condEnd
  dsimp only
  exact ite ((modSrc _ _).trans (modSrc _ _)) (ite ((modSrc _ _).trans (clearSource h)) (modSrc _ _))

/-! ### The end of a command -/

theorem settleQuiet : Reacts s (Machine.settleQuiet s) := ite (condEnd (by decide)) (refl _)

theorem settleLost : Reacts s (Machine.settleLost s) := ite ((logPut _).trans (setLog _ ⟨⟨[], rfl⟩, rfl, rfl⟩)) (refl _)

theorem settleLog : Reacts s (Machine.settleLog s) := by
  unfold Machine.settleLog
  dsimp only
  refine Reacts.trans ?_ (setLog _ ⟨⟨[], rfl⟩, rfl, rfl⟩)
  exact (ite (raise _) (ite (condEnd (by decide)) (refl _))).trans (ite (raise _) (refl _))

theorem setPins (a b : Bool) : Reacts s { s with flt := { s.flt with faultN := a, alertN := b } } :=
  setFlt _ ⟨⟨[], (List.append_nil _).symm⟩, rfl⟩ rfl

theorem settlePins (b : State) : Reacts s (Machine.settlePins b s) := by
  unfold Machine.settlePins
  dsimp only
  split
  · exact setPins _ _
  · exact (setPins _ _).trans (ibi _)

theorem stage (k n : Nat) (r : Rec) : Reacts s (s.modStrm k (fun x => x.stage n r)) := modStrm k _ (by intro; rfl)

theorem sealLog : Reacts s (Machine.sealLog s) :=
  ite (refl _) (Reacts.trans (t := { s with log := { s.log with
      recorded := s.log.recorded + min 125 (s.log.used - s.log.recorded), since := s.now } })
    (setLog _ ⟨⟨[], rfl⟩, rfl, rfl⟩) (stage 1022 _ _))

theorem sealDue : ∀ (f : Nat) (s : State), Reacts s (Machine.sealDue f s)
  | 0, s => refl s
  | f + 1, _ => ite (refl _) (sealLog.trans (sealDue f _))

theorem settleSeal : Reacts s (Machine.settleSeal s) := ite (refl _) (sealDue _ _)

theorem settle (b : State) : Reacts s (Machine.settle b s) :=
  (((settleQuiet.trans settleLost).trans settleLog).trans settleSeal).trans (settlePins b)

end Reacts

end Sys2Proof.Machine
end

