-- ==== Sys2Proof/Laws/Exec.lean ====
section
/-! SUPPORT. The form of every command's outcome: a next state, which the settling of pins and Logbook conditions ends. -/

namespace Sys2Proof.Machine

/-- Every meaning answers a next state: its effect, settled. -/
theorem exec_done (c : Instr) (s : State) : ∃ u, exec c s = .next (settle s u) := by
  cases c <;> exact ⟨_, rfl⟩

end Sys2Proof.Machine
end

