-- ==== Sys2Proof/Laws/Sources.lean ====
section
/-! SUPPORT. What a detection does to its fault source (R358, R367), and that every other source but fault_overflow stands as it
stood. -/

namespace Sys2Proof.Machine

/-- The two states hold the same fault sources. -/
def SameSrc (s t : State) : Prop := t.flt.src = s.flt.src

namespace SameSrc

variable {s t u : State}

theorem of (h : t.flt = s.flt) : SameSrc s t := congrArg FltSt.src h

theorem trans (h : SameSrc s t) (g : SameSrc t u) : SameSrc s u := Eq.trans g h

theorem srcAt (h : SameSrc s t) (n : Nat) : t.srcAt n = s.srcAt n := by
  unfold State.srcAt
  rw [h]

theorem ite {c : Prop} [Decidable c] {a b : State} (h : SameSrc s a) (g : SameSrc s b) : SameSrc s (if c then a else b) := by
  split
  · exact h
  · exact g

theorem thenIf {c : Prop} [Decidable c] {a b : State} (h : SameSrc s b) (g : SameSrc b a) : SameSrc s (if c then a else b) :=
  ite (h.trans g) h

theorem each {l : List Nat} {f : Nat → State → State} (h : ∀ n u, SameSrc u (f n u)) (g : SameSrc s t) :
    SameSrc s (Machine.each l f t) := by
  unfold Machine.each
  induction l generalizing t with
  | nil => exact g
  | cons n l ih => exact ih (g.trans (h n t))

theorem stamped : SameSrc s s.stamped := by
  unfold SameSrc State.stamped
  cases s.beat.st <;> rfl

theorem logPut (r : LogReq) : SameSrc s (s.logPut r) := SameSrc.trans stamped (of rfl)

theorem logEvent (r : LogReq) : SameSrc s (s.logEvent r) := by
  unfold State.logEvent
  split
  · exact logPut r
  · split <;> rfl

theorem sendFault (n : Nat) (r : FaultRep) : SameSrc s (s.sendFault n r) :=
  SameSrc.trans stamped (SameSrc.of (s := s.stamped) (by simp only [State.sendFault, State.sendFlit, State.modLink_flt]))

theorem modPath (n : Nat) (f : PathSt → PathSt) : SameSrc s (s.modPath n f) := of (by simp only [State.modPath_flt])

theorem modLink (n : Nat) (f : LinkSt → LinkSt) : SameSrc s (s.modLink n f) := of (by simp only [State.modLink_flt])

theorem reportCells (n : Nat) (r : FaultRep) : SameSrc s (Machine.reportCells n r s) := by
  unfold Machine.reportCells
  dsimp only
  split
  · exact ((modLink _ _).trans (sendFault _ _)).trans (logEvent _)
  · exact sendFault _ _

theorem reportRun (n : Nat) (r : FaultRep) : SameSrc s (Machine.reportRun n r s) := by
  unfold Machine.reportRun
  split
  · rfl
  · exact ((modPath _ _).trans (sendFault _ _)).trans (logEvent _)

theorem safeDatapath (n : Nat) : SameSrc s (Machine.safeDatapath n s) := by
  unfold Machine.safeDatapath
  dsimp only
  have h1 : ∀ {a : State} (l : List Nat), SameSrc a (Machine.each l (fun l s => s.modLane l (fun x => { x with txIdle := true })) a) :=
    fun l => each (fun _ _ => rfl) rfl
  have h2 : ∀ a, SameSrc a (Machine.endStim n a) := fun _ => ite (modPath _ _) rfl
  refine SameSrc.trans ?_ (each (fun _ _ => rfl) rfl)
  refine SameSrc.trans ?_ (each (fun _ _ => ite rfl rfl) rfl)
  exact thenIf (thenIf (SameSrc.trans (SameSrc.trans (thenIf (h1 _) (h1 _)) (modPath _ _)) (h2 _)) (modLink _ _))
    (each (fun _ _ => rfl) rfl)

theorem enterSafe (n : Nat) (h : Hold) (r : FaultRep) (b : Bool) : SameSrc s (Machine.enterSafe n h r b s) := by
  unfold Machine.enterSafe
  dsimp only
  refine ite rfl (SameSrc.trans (t := State.addHold s n h) rfl (ite (ite (reportCells _ _) rfl) (SameSrc.trans ?_ (logEvent _))))
  exact (safeDatapath _).trans (ite ((ite (sendFault _ _) (reportCells _ _)).trans (reportRun _ _)) rfl)

theorem deliver (e : Nat) : SameSrc s (Machine.deliver e s) := each (fun _ _ => ite rfl rfl) rfl

theorem discardStaging : SameSrc s (Machine.discardStaging s) :=
  SameSrc.trans (each (l := s.streamsOf (fun _ => true)) (f := fun k s => s.modStrm k (fun x =>
    { x with cur := none, evRec := none, staged := [], uncommitted := [] })) (fun _ _ => rfl) rfl) (of rfl)

theorem fatalPath (src n : Nat) : SameSrc s (Machine.fatalPath src n s) :=
  (enterSafe _ _ _ _).trans (ite (sendFault _ _) rfl)

theorem goFatal (src : Nat) : SameSrc s (Machine.goFatal src s) := by
  unfold Machine.goFatal
  dsimp only
  refine ite rfl (SameSrc.trans ?_ discardStaging)
  exact each (fun _ _ => fatalPath _ _) rfl

theorem setLost (p : PwrSt) (d : DbgSt) (r : BitVec 96) : SameSrc s { s with pwr := p, dbg := d, flt := { s.flt with resetCause := r } } := rfl

theorem clockLoss (src : Nat) : SameSrc s (Machine.clockLoss src s) := by
  have h1 : ∀ u, SameSrc u (allIdle u) := fun u => each (fun _ _ => rfl) rfl
  have h2 : ∀ u, SameSrc u (Machine.each [0, 1, 2, 3] (fun h s => s.modHbm h (fun x => { x with selfRefresh := true })) u) :=
    fun u => each (fun _ _ => rfl) rfl
  exact ((stamped.trans (h1 _)).trans (h2 _)).trans (setLost _ _ _)

end SameSrc

variable {s : State}

theorem State.srcAt_record_ne {src n : Nat} (h : n ≠ src) (cls escal : Nat) (line : Bool) (reaction : Nat) (tg : BitVec 32)
    (detail : Nat) : (s.record src cls escal line reaction tg detail).srcAt n = s.srcAt n := by
  unfold State.record
  dsimp only
  rw [SameSrc.srcAt (SameSrc.logEvent _) n]
  exact (State.srcAt_modSrc_ne s.stamped (fun x => { x with merged := 0, lastRec := some s.now }) h).trans (SameSrc.stamped.srcAt n)

theorem State.srcAt_ite {c : Prop} [Decidable c] {a b : State} {x : SrcSt} {n : Nat} (h : a.srcAt n = x) (g : b.srcAt n = x) :
    (if c then a else b).srcAt n = x := by
  split
  · exact h
  · exact g

/-- A raising leaves every other source as it stood. -/
theorem srcAt_raiseCls_ne {src n : Nat} (h : n ≠ src) (cls escal : Nat) (event : Bool) (cands : List Nat) (detail : Nat) :
    (raiseCls src cls escal event cands detail s).srcAt n = s.srcAt n := by
  unfold raiseCls
  dsimp only
  refine State.srcAt_ite (State.srcAt_modSrc_ne _ _ h) ?_
  rw [SameSrc.srcAt (SameSrc.deliver _) n,
    SameSrc.srcAt (SameSrc.thenIf (SameSrc.thenIf (SameSrc.each (fun _ _ => SameSrc.enterSafe _ _ _ _) rfl)
      (SameSrc.goFatal _)) (SameSrc.clockLoss _)) n, State.srcAt_modSrc_ne _ _ h, State.srcAt_record_ne h]

/-- A raising that is recorded leaves its source in the state of R358. -/
theorem srcAt_raiseCls {src : Nat} (cls escal : Nat) (event : Bool) (cands : List Nat) (detail : Nat) (h : cls ≠ 0 ∨ escal ≠ 0) :
    ∃ x g tg, (raiseCls src cls escal event cands detail s).srcAt src = { SrcSt.raised x cls s.now event g tg with detail := detail } := by
  have off : ∀ b : Bool, (decide (cls = 0) && decide (escal = 0) && b) = false := by
    intro b
    rcases h with h | h <;> simp [h]
  unfold raiseCls
  simp only [off, Bool.false_eq_true, if_false]
  rw [SameSrc.srcAt (SameSrc.deliver _) src,
    SameSrc.srcAt (SameSrc.thenIf (SameSrc.thenIf (SameSrc.each (fun _ _ => SameSrc.enterSafe _ _ _ _) rfl)
      (SameSrc.goFatal _)) (SameSrc.clockLoss _)) src, State.srcAt_modSrc_self, (Reacts.record _ _ _ _ _ _ _).now]
  exact ⟨_, _, _, rfl⟩

theorem srcAt_overflowCheck_ne {n : Nat} (h : n ≠ 2158) (b : State) : (overflowCheck b s).srcAt n = s.srcAt n := by
  unfold overflowCheck
  dsimp only
  split
  · split
    · exact srcAt_raiseCls_ne h _ _ _ _ _
    · split
      · exact srcAt_raiseCls_ne h _ _ _ _ _
      · rfl
  · rfl

/-- A detection leaves every other source but fault_overflow as it stood. -/
theorem srcAt_detect_ne {src n : Nat} (h : n ≠ src) (h' : n ≠ 2158) (st : Option Nat) (ev : Bool) (cands : List Nat) (d : Nat) :
    (detect src st ev cands d s).srcAt n = s.srcAt n := by
  unfold detect
  dsimp only
  split
  · rfl
  · split
    · split
      · rfl
      · rw [srcAt_overflowCheck_ne h', srcAt_raiseCls_ne h]
    · split
      · rfl
      · split
        · rw [srcAt_overflowCheck_ne h', srcAt_raiseCls_ne h]
        · rfl

theorem srcAt_raiseD_ne {src n : Nat} (h : n ≠ src) (h' : n ≠ 2158) (d : Nat) : (raiseD src d s).srcAt n = s.srcAt n :=
  srcAt_detect_ne h h' _ _ _ _

theorem srcAt_raise_ne {src n : Nat} (h : n ≠ src) (h' : n ≠ 2158) : (raise src s).srcAt n = s.srcAt n := srcAt_raiseD_ne h h' _

/-- A detection of an IDLE source without a condition, at a class above Note (R358): ACTIVE for a condition, LATCHED for an
event, at the class that R355 gives, with its detail. -/
theorem srcAt_detect_idle {src : Nat} (h : src ≠ 2158) (st : Option Nat) (ev : Bool) (cands : List Nat) (d : Nat)
    (never : neverRaised src = false) (idle : (s.srcAt src).st = 0) (cond : (s.srcAt src).cond = false)
    (cls : max (srcMin src) (st.getD (s.classReg src)) ≠ 0) :
    ((detect src st ev cands d s).srcAt src).st = (if ev then 2 else 1) ∧
    ((detect src st ev cands d s).srcAt src).cls = max (srcMin src) (st.getD (s.classReg src)) ∧
    ((detect src st ev cands d s).srcAt src).cond = !ev ∧
    ((detect src st ev cands d s).srcAt src).detail = d ∧
    ((detect src st ev cands d s).srcAt src).raisedAt = some s.now := by
  obtain ⟨x, g, tg, e⟩ := srcAt_raiseCls (s := s) (src := src) (max (srcMin src) (st.getD (s.classReg src))) 0 ev cands d (.inl cls)
  have : (detect src st ev cands d s).srcAt src = { SrcSt.raised x (max (srcMin src) (st.getD (s.classReg src))) s.now ev g tg with detail := d } := by
    unfold detect
    simp only [never, idle, cond, if_true, Bool.false_eq_true, if_false]
    rw [srcAt_overflowCheck_ne h, e]
  rw [this]
  simp [SrcSt.raised, cls]

/-- The same for a source raised by its own rule. -/
theorem srcAt_raiseD_idle {src : Nat} (h : src ≠ 2158) (d : Nat) (never : neverRaised src = false)
    (idle : (s.srcAt src).st = 0) (cond : (s.srcAt src).cond = false) (cls : max (srcMin src) (s.classReg src) ≠ 0) :
    ((raiseD src d s).srcAt src).st = (if isCondition src then 1 else 2) ∧
    ((raiseD src d s).srcAt src).cls = max (srcMin src) (s.classReg src) := by
  have := srcAt_detect_idle (s := s) h none (!isCondition src) (s.targetsOf src) d never idle cond cls
  refine ⟨?_, this.2.1⟩
  unfold raiseD
  rw [this.1]
  cases isCondition src <;> rfl

/-- A second detection of a LATCHED source, at a later instant, raises it one class higher (R367). -/
theorem srcAt_detect_latched {src : Nat} (h : src ≠ 2158) (st : Option Nat) (ev : Bool) (cands : List Nat) (d : Nat)
    (never : neverRaised src = false) (latched : (s.srcAt src).st = 2) (later : (s.srcAt src).raisedAt ≠ some s.now) :
    ((detect src st ev cands d s).srcAt src).st = (if ev then 2 else 1) ∧
    ((detect src st ev cands d s).srcAt src).cls = min 3 ((s.srcAt src).cls + 1) := by
  obtain ⟨x, g, tg, e⟩ := srcAt_raiseCls (s := s) (src := src) (min 3 ((s.srcAt src).cls + 1)) 1 ev cands d (.inr (by decide))
  have : (detect src st ev cands d s).srcAt src = { SrcSt.raised x (min 3 ((s.srcAt src).cls + 1)) s.now ev g tg with detail := d } := by
    unfold detect
    simp [never, latched, later]
    rw [srcAt_overflowCheck_ne h, e]
  rw [this]
  have : min 3 ((s.srcAt src).cls + 1) ≠ 0 := by omega
  simp [SrcSt.raised, this]

theorem srcAt_clearSource_ne {src n : Nat} (h : n ≠ src) : (clearSource src s).srcAt n = s.srcAt n := by
  unfold clearSource
  dsimp only
  have e : ∀ u, SameSrc u (each paths (fun n => unhold n (.source src)) u) :=
    fun u => SameSrc.each (fun _ _ => SameSrc.ite (SameSrc.modPath _ _) rfl) rfl
  rw [(e _).srcAt n]
  refine State.srcAt_ite ?_ (State.srcAt_modSrc_ne _ _ h)
  rw [(SameSrc.modPath _ _).srcAt n]
  exact State.srcAt_modSrc_ne _ _ h

theorem srcAt_condEnd_ne {src n : Nat} (h : n ≠ src) : (condEnd src s).srcAt n = s.srcAt n := by
  unfold condEnd
  dsimp only
  split
  · rw [State.srcAt_modSrc_ne _ _ h, State.srcAt_modSrc_ne _ _ h]
  · split
    · rw [srcAt_clearSource_ne h, State.srcAt_modSrc_ne _ _ h]
    · exact State.srcAt_modSrc_ne _ _ h

/-- Sealing LOG records leaves every source as it stood. -/
theorem srcAt_sealLog (n : Nat) (s : State) : (sealLog s).srcAt n = s.srcAt n := by
  unfold sealLog
  dsimp only
  split <;> rfl

theorem srcAt_sealDue (n : Nat) : ∀ (f : Nat) (s : State), (sealDue f s).srcAt n = s.srcAt n
  | 0, _ => rfl
  | f + 1, s => by
    unfold sealDue
    split
    · rfl
    · rw [srcAt_sealDue n f, srcAt_sealLog]

theorem srcAt_settleSeal (n : Nat) (s : State) : (settleSeal s).srcAt n = s.srcAt n := by
  unfold settleSeal
  split
  · rfl
  · exact srcAt_sealDue n _ s

/-- The settling of a command leaves every source but gon_quiet, log_reserve, log_mirror and fault_overflow as it stood. -/
theorem srcAt_settle {n : Nat} (b : State) (h1 : n ≠ 2137) (h2 : n ≠ 2150) (h3 : n ≠ 2152) (h4 : n ≠ 2158) :
    (settle b s).srcAt n = s.srcAt n := by
  have quiet : (settleQuiet s).srcAt n = s.srcAt n := by
    unfold settleQuiet
    dsimp only
    split
    · exact srcAt_condEnd_ne h1
    · rfl
  have lost : ∀ u : State, (settleLost u).srcAt n = u.srcAt n := by
    intro u
    unfold settleLost
    dsimp only
    split
    · exact SameSrc.srcAt (s := u) (SameSrc.logPut { kind := 0x1A, origin := .hardware, a := u.flt.logLost, b := u.log.infoLost }) n
    · rfl
  have log : ∀ u : State, (settleLog u).srcAt n = u.srcAt n := by
    intro u
    unfold settleLog
    dsimp only
    have keep : ∀ (v : State) (l : LogSt), State.srcAt { v with log := l } n = v.srcAt n := fun _ _ => rfl
    rw [keep]
    have first : ∀ c d : Bool, (if c = true then raise (srcGlobal 70) u else if d = true then condEnd (srcGlobal 70) u else u).srcAt n = u.srcAt n := by
      intro c d
      cases c
      · cases d
        · rfl
        · exact srcAt_condEnd_ne h2
      · exact srcAt_raise_ne h2 h4
    exact State.srcAt_ite ((srcAt_raise_ne h3 h4).trans (first _ _)) (first _ _)
  have sealing : ∀ u : State, (settleSeal u).srcAt n = u.srcAt n := fun u => srcAt_settleSeal n u
  have pins : ∀ u : State, (settlePins b u).srcAt n = u.srcAt n := by
    intro u
    unfold settlePins
    dsimp only
    split <;> rfl
  unfold settle
  rw [pins, sealing, log, lost, quiet]

end Sys2Proof.Machine
end

