-- ==== Sys2Proof/Tests/Slice0.lean ====
section
/-! SUPPORT. Tests on small states: each check of Instr.wf refuses a term, and for each statement of
Certificates/Slice0/Obligations.lean one state and operands that meet the hypotheses of each clause together. -/

set_option Elab.async false

namespace Sys2Proof.Tests
open Sys2Proof Sys2Proof.Machine

/-! ### Small states -/

/-- The device after its start sequence, with device firmware ready. -/
def up : State :=
  { State.reset with
    pwr := { State.reset.pwr with por := false, steps := 0x7FF },
    gon := { State.reset.gon with fwReady := true } }

/-- The beat scheduler is LOCKED. -/
def locked : State := { up with beat := { up.beat with st := .locked } }

/-- Path slot 0 leads itself on D-port slot 0, an 8-lane PCIe port, and I-port slot 0, a port of 4 lanes and 2 spares on lanes 0
to 5. -/
def wired : State :=
  (((((locked.setReg 0x100000 0xFF008000#32).setReg 0x200000 0x00008204#32).setReg 0x200010 0x03020100#32).setReg 0x200014
    0x00000504#32).setReg 0x201000 0x00008800#32)

/-- A fired entry of slot 0, written over the management bus. -/
def act : Fire := ⟨0, false, .mgmt, false⟩

/-- A strap pin sampled low. -/
def pin : StrapPin := ⟨List.replicate 8 0, List.replicate 8 0⟩

/-- A chip with an image of generation 1 whose seven sections are empty (R387, R388). -/
def chipOne : NvmChip :=
  { bytes := bytesOf 4 0x575A494D ++ [0, 1, 0, 7] ++ bytesOf 4 1 ++ bytesOf 4 4096 ++ List.replicate 16 0
      ++ ([1, 2, 3, 4, 5, 6, 7] : List Byte).flatMap (fun t => [t, 0, 0, 0] ++ bytesOf 4 4096 ++ List.replicate 56 0)
    shas := List.replicate 7 0, keyHashOk := true, signatureOk := true, lineFault := false }

/-- A chip that holds nothing. -/
def chipNone : NvmChip := ⟨[], List.replicate 7 0, false, false, false⟩

/-- A frame of index 1 with its local edge, and the beat scheduler in a state with it waiting. -/
def frameAt (e : Nat) : PendFrame := { index := 1, flags := 0, inverted := false, edge := e }
def waitingAt (st : BeatState) (e : Nat) : State := { up with beat := { up.beat with st := st, pend := [frameAt e] } }
def waiting (st : BeatState) : State := waitingAt st 0

/-- The frame of index 1 and flags 0 of R40 to R42: preamble, start, and 64 bit cells, each 0 as high-low and each 1 as
low-high. -/
def beatOne : BitVec 160 := 0x666666f0aaaaaaaaaaaaaaaaaaaaaaa9aaaaa999#160

/-- A rekey in a state, from slot 1 to slot 2. -/
def rekeying (st : Nat) : State := locked.modEnv (fun e => { e with rkState := st, rkOld := 1, rkNew := 2 })

/-- The link of I-port slot 0 is up on positions 0 to 3, with positions 4 and 5 in its pool; its lanes are in Run and their
receivers are used. -/
def linked : State :=
  (List.range 6).foldl (fun s l => s.modLane l (fun x => { x with st := .run, eligible := true }))
    (wired.modPort 0 (fun p => { p with up := true, active := 0xF, pool := 0x30 }))

/-- Path 0 is in Drive. -/
def driven : State := wired.modPath 0 (fun p => { p with mode := .drive })

/-- Path 0 is in DARK, and a beat edge later than phase 1's is reached. -/
def darkened : State :=
  { wired.modPath 0 (fun p => { p with phase := .dark, trans := some ⟨false, true, .moored, none, 0⟩ }) with
    beat := { wired.beat with edge := 8 } }

/-- The anchor word of tag 0, position 0, lane 0 and count 1 (R76 to R78). -/
def anchorOne : BitVec 128 := 0xfc0ccf33c0ff030f00000001ef088c84#128

/-- The negotiation sets ADV, CONF and HOLD of tag 0, position 0 and lane 0 of a six-lane port with a ceiling of 3: comma, D5.6 and
nine characters of R140. -/
def setAdv : List Bool := bitsOf 110 0xfaa5a2b8ad8b62d8b6531b62dc2
def setConf : List Bool := bitsOf 110 0xfaa592b8ad8b62d8b6531b62c9a
def setHold : List Bool := bitsOf 110 0xfaa5b14752749d27466f149d39a

/-- The training frame of a control field of zeros (R143, R144). -/
def frameZero : BitVec 192 := 0xfc0ccf33c0ff030f00000000000000000000000000000000#192

/-- Lane 0 in a lane state. -/
def laned (f : LaneSt → LaneSt) : State := wired.modLane 0 f

/-- Port 0 on its ladder. -/
def ladder (f : LadderSt → LadderSt) : State := (wired.setReg 0x300000 0x0842030B#32).modLad 0 f

/-- Port 0 on its ladder, all its lanes negotiated. -/
def agreed : State :=
  (List.range 6).foldl (fun s l => s.modLtr l (fun x => { x with negotiated := true })) (ladder (fun x => { x with step := 1, partnerLead := true }))

/-- The lanes of port 0 can carry flits. -/
def carrying (s : State) : State :=
  (List.range 6).foldl (fun s l => s.modLane l (fun x => { x with st := .run, anchor := .locked, identOk := true })) s

/-- Path 0 in a mode. -/
def moded (m : Mode) : State := wired.modPath 0 (fun p => { p with mode := m })

/-- Path 0 with an Ethernet D port, in a mode. -/
def ether (f : PathSt → PathSt) : State := ((moded .pass).setReg 0x201000 0x0000A800#32).modPath 0 f

/-- The header of a flit of path 0, and the flit as it arrives on position 0. -/
def flitHw (typ lf : Nat) (seq : Seq) : BitVec 96 := hdrWord typ 0 false seq 0 0 lf
def flitHdr (typ lf : Nat) (seq : Seq) : Hdr := hdrOf (flitHw typ lf seq)
def flit (typ lf : Nat) (seq : Seq) (pl : List Byte) : RxFlit := sentFlit 0 (flitHw typ lf seq) (fit 256 0 pl)

theorem flit_wf (typ lf : Nat) (seq : Seq) (pl : List Byte) : (flit typ lf seq pl).wf = true := 
  sentFlit_wf _ _ _

theorem flit_head {s : State} {typ lf : Nat} {seq : Seq} {pl : List Byte}
    (hp : (s.laneAt (s.ipLane 0 0)).rxInv = false ∧ (s.laneAt (s.ipLane 0 0)).precRx = false) :
    s.flitHead 0 (flit typ lf seq pl) = some (flitHdr typ lf seq, fit 256 0 pl) :=
  flitHead_sent s 0 0 _ _ (by simp) hp.1 hp.2

theorem flit_read {s : State} {typ lf : Nat} {seq : Seq} {pl : List Byte}
    (hp : (s.laneAt (s.ipLane 0 0)).rxInv = false ∧ (s.laneAt (s.ipLane 0 0)).precRx = false) :
    s.readFlit 0 (flit typ lf seq pl) = .got (flitHw typ lf seq) (fit 256 0 pl) 0 :=
  readFlit_sent s 0 0 _ _ (by simp) hp.1 hp.2

/-- Content bytes of zeros but for the last one, and a flit of them whose CRC fails. -/
def zerosTo (b : Byte) : List Byte := List.replicate 268 0 ++ [0, 0, 0, b]
def flitBad : RxFlit := wireFlit 0 (codeWire (zerosTo (if crc32c (List.replicate 268 0) = 0 then 1 else 0)))

theorem zerosTo_length (b : Byte) : (zerosTo b).length = 272 := by rw [zerosTo, List.length_append, List.length_replicate]; rfl

theorem flitBad_wf : flitBad.wf = true := wireFlit_wf _ _ (by rw [codeWire_length, zerosTo_length])

def badLine : List (Fin 4) := flitBad.before :: flitBad.levels

theorem badLine_wf : (Instr.flitLost 0 0 0 flitBad.sym badLine).wf = true := by
  have h : flitBad.levels.length = 1152 := by simpa [RxFlit.wf] using flitBad_wf
  simp [Instr.wf, badLine, h]

theorem badLine_flit : flitBad = lineFlit 0 flitBad.sym badLine := rfl

theorem flitBad_read {s : State}
    (hp : (s.laneAt (s.ipLane 0 0)).rxInv = false ∧ (s.laneAt (s.ipLane 0 0)).precRx = false) : s.readFlit 0 flitBad = .lost true := by
  have ht (b : Byte) : (zerosTo b).take 268 = List.replicate 268 0 := List.take_left' List.length_replicate
  have hd (b : Byte) : (zerosTo b).drop 268 = [0, 0, 0, b] := List.drop_left' List.length_replicate
  rw [flitBad, readFlit_wire s 0 0 _ (by rw [codeWire_length, zerosTo_length]) hp.1 hp.2,
    flitRead_code _ (zerosTo_length _), ht, hd]
  by_cases h : crc32c (List.replicate 268 0) = 0
  · rw [if_pos h, h]; rfl
  · rw [if_neg h, show ofBytes [0, 0, 0, (0 : Byte)] = 0 from rfl, if_neg h]

/-- A flit that a link of path 0 in this state hears. -/
def hearable (s : State) (typ lf : Nat) (seq : Seq) (pl : List Byte) (ok : Hdr → List Byte → Bool) : Bool :=
  !(s.laneAt (s.ipLane 0 0)).rxInv && !(s.laneAt (s.ipLane 0 0)).precRx && !s.still && s.linkPath 0 == some 0 && s.hears 0 0
    && s.flitOk 0 false (flitHdr typ lf seq) (fit 256 0 pl) && ok (flitHdr typ lf seq) (fit 256 0 pl)
    && (s.portAt 0).link.cells.isEmpty && (s.portAt 0).link.got.isEmpty && (s.portAt 0).link.refuse.isEmpty && !s.pwr.fatalDone

theorem flit_heard {s : State} {typ lf : Nat} {seq : Seq} {pl : List Byte} {ok : Hdr → List Byte → Bool}
    (h : hearable s typ lf seq pl ok = true) :
    s.hearsFlit 0 (flit typ lf seq pl) 0 ok = true ∧ s.flitHead 0 (flit typ lf seq pl) = some (flitHdr typ lf seq, fit 256 0 pl) := by
  simp only [hearable, Bool.and_eq_true, Bool.not_eq_true', beq_iff_eq, List.isEmpty_iff] at h
  obtain ⟨⟨⟨⟨⟨⟨⟨⟨⟨⟨h1, h2⟩, h3⟩, h4⟩, h5⟩, h6⟩, h7⟩, h8⟩, h9⟩, h10⟩, h11⟩ := h
  exact ⟨hearsFlit_sent s 0 0 _ _ 0 ok (by simp) h1 h2 ⟨h3, h4, h5⟩ ⟨h6, h7⟩ ⟨h8, h9, h10, h11⟩, flit_head ⟨h1, h2⟩⟩

theorem flit_heard_and {s : State} {typ lf : Nat} {seq : Seq} {pl : List Byte} {ok : Hdr → List Byte → Bool} {P : Prop}
    (h : hearable s typ lf seq pl ok = true) (hP : P) :
    s.hearsFlit 0 (flit typ lf seq pl) 0 ok = true ∧ s.flitHead 0 (flit typ lf seq pl) = some (flitHdr typ lf seq, fit 256 0 pl) ∧ P :=
  ⟨(flit_heard h).1, (flit_heard h).2, hP⟩

theorem flit_received {s : State} {typ lf cls : Nat} {seq : Seq} {pl : List Byte} {P : Prop}
    (h : hearable s typ lf seq pl (fun h p => ofType typ cls h p && h.seq == (s.portAt 0).link.ack + 1) = true)
    (hP : 1 ≤ s.toDCells 0 ∧ P) :
    s.receivesNext 0 (flit typ lf seq pl) 0 typ cls = true ∧
    s.flitHead 0 (flit typ lf seq pl) = some (flitHdr typ lf seq, fit 256 0 pl) ∧ P := by
  have := flit_heard h
  refine ⟨?_, this.2, hP.2⟩
  simp only [State.receivesNext, this.1, hP.1, decide_true, Bool.and_self]

/-- A MARK flit that lane 0 sent. -/
def markOne : TxFlit := { typ := 7, seq := 1, sends := [(0, 0, 0, 0)] }

/-- The link of port 0 in a state, its path in Guard. -/
def link (f : LinkSt → LinkSt) : State := (linked.modPath 0 (fun p => { p with mode := .guard })).modLink 0 f

/-- A TUNNEL message of port 0 waits for its answer. -/
def tunWaits (op fresh : Nat) : State := link (fun l => { l with tunnel := if op = 1 then 0 else 2, tunMsg := some (op, fresh, 0, 0) })

/-- The link of port 0 with stream 0, enabled in the role of an expected stream. -/
def loading (role : Word) : State :=
  (linked.setReg 0x510000 (0x80000000#32 ||| role)).modStrm 0 (fun x => { x with chunkSeq := 1, slot := some 0 })

/-- A SPARE message that waits for its answer, for lanes 0 and 4. -/
def spareMsg (op : Nat) : SpareMsg := { op := op, out := 0, inn := 4, cause := 1, tx := none, lost := none, since := 0 }

/-- Port 0 with a waiting SPARE message. -/
def spareWaits (op : Nat) : State := linked.modPort 0 (fun p => { p with spare := [spareMsg op] })

/-- Path 0 in Guard with its tunnel running, given its timeline from interval 0 on. -/
def tunnelled (g : LinkSt → LinkSt) (f : PathSt → PathSt) : State :=
  (link (fun l => g { l with tunnel := 1, fresh := false })).modPath 0 (fun p => f { p with timeline := some (0, 0) })

/-- The accepted DATA flit of interval 0. -/
def cellOne : RxCell := { seq := 1, typ := 1, cls := 0, interval := 0, payload := [] }

/-- A sealed and committed record of a number. -/
def record (q : Nat) : Rec := { kind := 1, seq := q, time := 0, payload := [] }

/-- Stream 0 in a state. -/
def stream (f : StrmSt → StrmSt) : State := (wired.setReg 0x510000 0xA0000000#32).modStrm 0 f

/-- Stream 0 captures path 0 in the direction D→I and has a row to write. -/
def slotted : State := (wired.setReg 0x510000 0xA0000020#32).modStrm 0 (fun x => { x with staged := [record 1, record 2, record 3] })

/-- The store with a group of four drives, stream 0 with an extent of one row and one record to drain. -/
def draining : State :=
  let s := (stream (fun x => { x with slot := some 0, window := [record 1] })).setReg 0x701008 1
  { s with sto := { s.sto with group := 4 } }

/-- The train unit is enabled, on the member of an id. -/
def train (id : Nat) : State :=
  (up.setReg 0x40000 0x80#32).modPwr (fun p => { p with strap := BitVec.ofNat 32 (16 * id) })

/-- A request of a service at the front of mailbox 0. -/
def request (sv : Byte) (body : List Byte) : MbMsg := ⟨sv, 0, 0, 0, 0, BitVec.ofNat 16 body.length, List.replicate 8 0, fit 240 0 body⟩

/-- Mailbox 0 holds a request. -/
def asked (m : MbMsg) (s : State) : State := s.modMb 0 (fun b => { b with inQ := [m] })

/-- The device on an I2C bus with SMBus. -/
def smbus : State := up.modPwr (fun p => { p with strap := 0x4000 })

/-- Record 3 is loaded, and the root is not blank. -/
def keyed (kind : Nat) : State :=
  (locked.modPwr (fun p => { p with rootId := 1 })).modKey 3 (fun k => { k with loaded := true, kind := kind, keyId := 7 })

/-- Automatic rekeys are enabled on records 8 to 9. -/
def rekeys (f : EnvSt → EnvSt) : State :=
  (((keyed 1).modKey 3 (fun k => { k with slot := some 1, counter := 2 ^ 31 })).setReg 0x60008 0x10908#32).modEnv f

/-- A debug session of level 2 is open. -/
def session : State := up.modDbg (fun d => { d with isOpen := true, level := 2 })

/-- Core 0 is halted in a session. -/
def halted : State := session.modCore 0 (fun c => { c with halted := true })

/-- A record of class 3 stands in the queue, classes of which make ALERT_N low, and an interrupt is pending on the I3C bus. -/
def alerting : State :=
  let s := (up.setReg 0x20808 0xF).modGon (fun g => { g with mgmt := { g.mgmt with ibiPend := some 1 } })
  { s with flt := { s.flt with recs := [⟨0, 3, 0, 0, 0, 0, 0, 0⟩] } }

/-- The automatic rekey of record 3 has generated record 8, and has bound it to slot 1. -/
def rekeyOne : State := keyOp (.core 0) 2 8 0 (rekeys id)
def rekeyTwo : State := keyOp (.core 0) 3 8 1 rekeyOne

/-! ### Well-formedness: a term that each check refuses -/

theorem test_wf_pins : (Instr.supplyGood 0 [pin]).wf = false ∧ (Instr.supplyGood 0 (List.replicate 10 ⟨[], []⟩)).wf = false := by decide
theorem test_wf_fuses : (Instr.pllLock 0 [⟨0, [], [0, 0, 0]⟩] 0 true).wf = false := by decide
theorem test_wf_origin : (Instr.schedCancel (.image 8) 0).wf = false ∧ (Instr.schedCancel (.image 0) 0).wf = false ∧
    (Instr.nop ⟨0, false, .image 0, false⟩ 0).wf = false ∧ (Instr.keyClear (.image 9) 1).wf = false := by decide
theorem test_wf_chip : (Instr.imageLoadComplete 0 ⟨[], [0], true, true, false⟩ chipNone).wf = false := by decide
theorem test_wf_taps : (Instr.adaptationUpdate 0 0 0 ⟨[], 0, 0⟩ .none).wf = false ∧
    (Instr.adaptationUpdate 0 0 0 ⟨List.replicate 24 0, 0, 0⟩ (.taps [1])).wf = false := by decide
theorem test_wf_calibration : (Instr.calibration 0 [true] []).wf = false := by decide
theorem test_wf_scan : (Instr.wskScanEnd 0 .complete (List.replicate 257 [])).wf = false := by decide +kernel
theorem test_wf_line : (Instr.flitLost 0 0 0 0 []).wf = false := by decide
theorem test_wf_flit : (Instr.idle 0 0 ⟨0, 0, 0, []⟩).wf = false := by decide
theorem test_wf_decoded_unit : (Instr.data 0 0 (flit 1 0 1 []) [⟨[0], []⟩]).wf = false := by simp [Instr.wf, DecUnit.wf]
theorem test_wf_lanes : (Instr.dToIReceive 0 0 ⟨List.replicate 17 [], [], [], 0, 0, false⟩).wf = false := by decide
theorem test_wf_segment : (Instr.segmentTrainingComplete 0 .iSide ⟨0, 0, [(0, [1])]⟩).wf = false := by decide
theorem test_wf_block : (Instr.driveCommandComplete 0 (.readRecord 0 [] true)).wf = false := by decide
theorem test_wf_sequence : (Instr.splRelease .mgmt 0 (2 ^ 64)).wf = false ∧ (Instr.preload .mgmt 0 0 (2 ^ 32)).wf = false := by decide
theorem test_wf_readings : (Instr.tempSample 0 []).wf = false := by decide
theorem test_wf_message : (Instr.regRead 0 0 ⟨1, 0, 0, 0, 0, 0, [], []⟩).wf = false := by decide
theorem test_wf_memory : (Instr.gonEcc ⟨.codeRam (2 ^ 18) none, true, 0⟩).wf = false := by decide
theorem test_wf_words : (Instr.envMemWrite 0 0 []).wf = false ∧ (Instr.memWrite 0 0 0 []).wf = false ∧ (Instr.gmemWrite 0 0 0 []).wf = false := by decide
theorem test_wf_drives : (Instr.storeLinkUp 0 [⟨0, 1, true, 0⟩]).wf = false := by decide
theorem test_wf_frame : (Instr.dbgBadFrame 0 159 []).wf = false ∧ (Instr.dbgBadFrame 0 160 [19]).wf = false := by decide

/-! ### The check values that the spec gives for the string "123456789", and the words written out from its encodings -/

/-- The string "123456789". -/
def digits : List Byte := [0x31, 0x32, 0x33, 0x34, 0x35, 0x36, 0x37, 0x38, 0x39]

/-- R42. -/
theorem test_crc8 : crc8 (digits.flatMap (fun b => bitsOf 8 b.toNat)) = 0xF4 := by decide +kernel
/-- R337. -/
theorem test_crc16 : crc16 (digits.flatMap (fun b => bitsOf 8 b.toNat)) = 0x29B1 := by decide +kernel
/-- R78. -/
theorem test_crc32c : crc32c digits = 0xE3069283 := by decide +kernel
/-- R250. -/
theorem test_crc64 : crc64 digits = 0x995DC9BBDF1939FA := by decide +kernel
/-- R40 to R43, and R45 for the inverted frame. -/
theorem test_beat_frame : decodeBeat beatOne = some (1, 0, false) ∧ decodeBeat (~~~beatOne) = some (1, 0, true) ∧
    decodeBeat (beatOne ^^^ 1) = none := by decide +kernel
/-- R76 to R78, and R92 for the inverted lane. -/
theorem test_anchor_word : anchorDecode anchorOne = some (false, 1) ∧ anchorDecode (~~~anchorOne) = some (true, 1) ∧
    anchorDecode (anchorOne ^^^ 1) = none := by decide +kernel
/-- R74 and R140: ADV, and CONF with its lane inverted; a bit in error fails. -/
theorem test_negotiation_set : setDecode setAdv = some (false, [1, 1, 0, 0, 0, 6, 3, 0, 142]) ∧
    setDecode (bitsOf 110 0x3055a6d4752749d2749ace49d365) = some (true, [2, 1, 0, 0, 0, 6, 3, 0, 187]) ∧
    ((setDecode (bitsOf 110 0xfaa5a2b8ad8b62d8b6d31b62dc2)).map (fun x => setValid (negSetOf x.2))).getD false = false := by decide +kernel
/-- R143 and R144. -/
theorem test_training_frame : frameDecode frameZero = some (false, 0) ∧ frameDecode (~~~frameZero) = some (true, 0) := by decide +kernel
/-- R334 to R338: member 2, page 1, LOCKED, index 5, heartbeat 7; and the inverted slot. -/
def slotTwo : BitVec 400 :=
  0x666666f0aa696aaaaaaaaaaaaaaaaaaaaaaaaa99aa95a9a6a59a9996956a6966655a595655aaa9a6a59a999a665500#400
theorem test_train_slot :
    validSlot ⟨2, slotTwo⟩ = some (false, 0x98000000000000507123456789abcdef0123454af#168) ∧
    (validSlot ⟨2, ~~~slotTwo⟩).isSome = true ∧ validSlot ⟨3, slotTwo⟩ = none := by decide +kernel
/-- R192: type 1, path 2, rp, seq 3, ack 4, beat_lo 0, phase 5, len_flags 6. -/
theorem test_flit_header : hdrOf (hdrWord 1 2 true 3 4 5 6) = ⟨1, 2, true, 0, 3, 4, 0, 5, 6⟩ ∧
    hdrWord 1 2 true 3 4 5 6 = 0x114000003000004000000506#96 := by decide +kernel
/-- The table gives no row any bits. -/
theorem test_no_word_spells_a_command : decodeTableWord 0 0 = none ∧ decodeTableWord 32 0xFFFFFFFF = none := by decide

/-! ### The completion statements: states that meet the hypotheses of each clause -/

theorem test_meets_start_sequence_completes :
    (∃ t, ∃ pins, ∃ s : State, (Instr.supplyGood t pins).wf = true ∧ s.pwr.por = true ∧ s.stepDone 1 = false) ∧
    (∃ supply, (Instr.powerOnReset supply).wf = true) ∧
    (∃ t, ∃ s : State, (Instr.refclkCountComplete t).wf = true ∧ s.pwr.por = true ∧ s.stepDone 2 = true ∧ s.pwr.refSince +
      s.refWait ≤ max s.now t ∧ s.room 1 = true) ∧
    (∃ t, ∃ fuses, ∃ rootId, ∃ ok, ∃ s : State, (Instr.pllLock t fuses rootId ok).wf = true ∧ s.still = false ∧ s.stepDone 3 =
      true ∧ s.stepDone 4 = false ∧ s.stepDone 5 = false) ∧
    (∃ t, ∃ failed, ∃ pcs, ∃ s : State, (Instr.hbmTrainingComplete t failed pcs).wf = true ∧ s.still = false ∧ s.stepDone 4 = true
      ∧ s.stepDone 7 = false ∧ s.pwr.fatal = false) ∧
    (∃ t, ∃ a, ∃ b, ∃ g, ∃ s : State, (Instr.imageLoadComplete t a b).wf = true ∧ s.still = false ∧ s.stepDone 6 = true ∧
      s.stepDone 8 = false ∧ s.pwr.fatal = false ∧ s.nvmMode ≠ 3 ∧ highest ((if s.gon.img.booted then [s.gon.img.gRun] else
      generations a b).filter (fun g => complete a b g)) = some g) ∧
    (∃ t, ∃ a, ∃ b, ∃ s : State, (Instr.imageLoadComplete t a b).wf = true ∧ s.still = false ∧ s.stepDone 6 = true ∧ s.stepDone 8
      = false ∧ s.pwr.fatal = false ∧ s.nvmMode = 3) ∧
    (∃ t, ∃ scan, ∃ s : State, (Instr.firmwareStart t scan).wf = true ∧ s.still = false ∧ s.stepDone 8 = true ∧ s.stepDone 9 =
      true ∧ s.gon.fwReady = false ∧ (s.coreAt 0).halted = false ∧ (s.domAt 201).inReset = false) :=
  ⟨⟨0, List.replicate 10 pin, State.reset, by decide +kernel⟩,
    ⟨0, by decide +kernel⟩,
    ⟨1000 * ms, State.reset.modPwr (fun p => { p with steps := 6 }), by decide +kernel⟩,
    ⟨0, [], 0, true, up.modPwr (fun p => { p with steps := 0xE }), by decide +kernel⟩,
    ⟨0, [], [], up.modPwr (fun p => { p with steps := 0x7E }), by decide +kernel⟩,
    ⟨0, chipOne, chipNone, 1, up.modPwr (fun p => { p with steps := 0xFE }), by decide +kernel⟩,
    ⟨0, chipNone, chipNone, up.modPwr (fun p => { p with steps := 0xFE, strap := 0x30000 }), by decide +kernel⟩,
    ⟨0, ⟨[], [], []⟩, up.modGon (fun g => { g with fwReady := false }), by decide +kernel⟩⟩

theorem test_meets_beat_frames_and_edges_complete :
    (∃ t, ∃ cells, ∃ s : State, ∃ i, ∃ f, ∃ inv, (Instr.beatFrame t cells).wf = true ∧ s.still = false ∧ decodeBeat cells = some
      (i, f, inv)) ∧
    (∃ t, ∃ cells, ∃ s : State, (Instr.beatFrame t cells).wf = true ∧ s.still = false ∧ decodeBeat cells = none) ∧
    (∃ t, ∃ s : State, ∃ f, ∃ l, (Instr.localBeatEdge t).wf = true ∧ s.still = false ∧ s.beat.pend = f :: l ∧ f.edge ≤ max s.now t
      ∧ s.beat.st = .none) ∧
    (∃ t, ∃ s : State, ∃ f, ∃ l, (Instr.localBeatEdge t).wf = true ∧ s.still = false ∧ s.beat.pend = f :: l ∧ f.edge ≤ max s.now t
      ∧ s.beat.st = .acquiring ∧ s.beat.gap = false ∧ s.beat.dist f = 1 ∧ s.beat.edge + 1900 * ns ≤ f.edge) ∧
    (∃ t, ∃ s : State, ∃ f, ∃ l, (Instr.localBeatEdge t).wf = true ∧ s.still = false ∧ s.beat.pend = f :: l ∧ f.edge ≤ max s.now t
      ∧ s.beat.st ≠ .none ∧ f.edge < s.beat.edge + 1900 * ns) :=
  ⟨⟨0, beatOne, up, 1, 0, false, by decide +kernel⟩,
    ⟨0, 0, up, by decide +kernel⟩,
    ⟨0, waiting .none, frameAt 0, [], by decide +kernel⟩,
    ⟨ms, waitingAt .acquiring (2000 * ns), frameAt (2000 * ns), [], by decide +kernel⟩,
    ⟨0, waiting .locked, frameAt 0, [], by decide +kernel⟩⟩

theorem test_meets_loss_and_firing_complete :
    (∃ t, ∃ s : State, (Instr.beatLoss t).wf = true ∧ s.still = false ∧ (s.at t).beatGone = true) ∧
    (∃ t, ∃ s : State, (Instr.schedFire t).wf = true ∧ s.still = false ∧ s.beat.st ≠ .locked) ∧
    (∃ t, ∃ s : State, ∃ bt, ∃ k, ∃ v, (Instr.schedFire t).wf = true ∧ s.still = false ∧ s.firing = true ∧ s.trnEnable = false ∧
      s.room 2 = true ∧ (s.at t).dueEntries (fun x => decide (x ≤ (s.at t).beatTime)) = [(bt, k)] ∧ actOf (s.schedAt k).w2.toNat
      (s.schedAt k).w3.toNat = some (.logMark v)) :=
  ⟨⟨10000 * ms, locked, by decide +kernel⟩,
    ⟨0, up, by decide +kernel⟩,
    ⟨0, locked.setSched 0 { valid := true, w2 := 0x80B00000#32 }, 0, 0, 0, by decide +kernel⟩⟩

theorem test_meets_schedule_loads_complete :
    (∃ ip, ∃ slot, ∃ w0, ∃ w1, ∃ w2, ∃ w3, ∃ s : State, (Instr.schedLoad (.ctrlFlit ip) slot w0 w1 w2 w3).wf = true ∧ s.unclocked
      = false ∧ s.fatalRefuses (.ctrlFlit ip) = false ∧ s.room 2 = true) ∧
    (∃ ip, ∃ slot, ∃ s : State, (Instr.schedCancel (.ctrlFlit ip) slot).wf = true ∧ s.unclocked = false ∧ s.fatalRefuses
      (.ctrlFlit ip) = false ∧ s.room 1 = true ∧ (s.schedAt slot.val).valid = true ∧ s.beforeHorizon (s.schedAt slot.val).time =
      false) ∧
    (∃ ip, ∃ slot, ∃ s : State, (Instr.schedCancel (.ctrlFlit ip) slot).wf = true ∧ s.unclocked = false ∧ s.fatalRefuses
      (.ctrlFlit ip) = false ∧ s.room 1 = true ∧ (s.schedAt slot.val).valid = false) ∧
    (∃ o, ∃ slot, ∃ w0, ∃ w1, ∃ w2, ∃ w3, ∃ s : State, (Instr.schedLoad o slot w0 w1 w2 w3).wf = true ∧ (∀ ip, o ≠ .ctrlFlit ip) ∧
      s.unclocked = false ∧ s.fatalRefuses o = false ∧ s.room 3 = true) ∧
    (∃ o, ∃ slot, ∃ s : State, (Instr.schedCancel o slot).wf = true ∧ (∀ ip, o ≠ .ctrlFlit ip) ∧ s.unclocked = false ∧
      s.fatalRefuses o = false ∧ s.room 2 = true ∧ (s.schedAt slot.val).valid = true ∧ s.beforeHorizon (s.schedAt slot.val).time =
      false) :=
  ⟨⟨0, 0, 0, 0, 0, 0, up, by decide +kernel⟩,
    ⟨0, 0, locked.setSched 0 { valid := true, w1 := 1 }, by decide +kernel⟩,
    ⟨0, 0, up, by decide +kernel⟩,
    ⟨.mgmt, 0, 0, 0, 0, 0, up, by decide +kernel⟩,
    ⟨.mgmt, 0, locked.setSched 0 { valid := true, w1 := 1 }, by decide +kernel⟩⟩

theorem test_meets_capture_and_window_actions_complete :
    (∃ f, ∃ v, ∃ s : State, (Instr.nop f v).wf = true ∧ s.fires f (.nop v.toNat) = true) ∧
    (∃ f, ∃ v, ∃ s : State, (Instr.logMark f v).wf = true ∧ s.fires f (.logMark v.toNat) = true) ∧
    (∃ f, ∃ k, ∃ n, ∃ s : State, (Instr.captureOpen f k n).wf = true ∧ s.fires f (.captureOpen k.val n.toNat) = true ∧ (s.strmAt
      k.val).isOpen = false ∧ s.stEn k.val = true ∧ s.stRole k.val ≤ 1) ∧
    (∃ f, ∃ k, ∃ s : State, (Instr.captureClose f k).wf = true ∧ s.fires f (.captureClose k.val) = true ∧ (s.strmAt k.val).isOpen
      = true ∧ (s.strmAt k.val).armed = false) ∧
    (∃ f, ∃ p, ∃ c, ∃ l, ∃ s : State, (Instr.windowOpen f p c l).wf = true ∧ s.fires f (.windowOpen p.val c.val l) = true ∧
      (s.ctxAt p.val c.val).waiting = none ∧ (s.ctxAt p.val c.val).isOpen = false) ∧
    (∃ f, ∃ p, ∃ c, ∃ l, ∃ s : State, (Instr.windowOpen f p c l).wf = true ∧ s.fires f (.windowOpen p.val c.val l) = true ∧
      (s.ctxAt p.val c.val).waiting = none ∧ (s.ctxAt p.val c.val).isOpen = true) ∧
    (∃ f, ∃ p, ∃ c, ∃ s : State, (Instr.windowClose f p c).wf = true ∧ s.fires f (.windowClose p.val c.val) = true ∧ (s.ctxAt
      p.val c.val).waiting = none ∧ (s.ctxAt p.val c.val).isOpen = true ∧ (s.ctxAt p.val c.val).forming = 0 ∧ (s.ctxAt p.val
      c.val).nextBank = 0) ∧
    (∃ f, ∃ p, ∃ c, ∃ s : State, (Instr.windowClose f p c).wf = true ∧ s.fires f (.windowClose p.val c.val) = true ∧ (s.ctxAt
      p.val c.val).waiting = none ∧ (s.ctxAt p.val c.val).isOpen = false) :=
  ⟨⟨act, 0, locked, by decide +kernel⟩,
    ⟨act, 0, locked, by decide +kernel⟩,
    ⟨act, 0, 0, (locked.setReg 0x510000 0x80000000#32), by decide +kernel⟩,
    ⟨act, 0, locked.modStrm 0 (fun x => { x with isOpen := true }), by decide +kernel⟩,
    ⟨act, 0, 0, 0, locked, by decide +kernel⟩,
    ⟨act, 0, 0, 0, locked.modCtx 0 0 (fun c => { c with isOpen := true }), by decide +kernel⟩,
    ⟨act, 0, 0, locked.modCtx 0 0 (fun c => { c with isOpen := true }), by decide +kernel⟩,
    ⟨act, 0, 0, locked, by decide +kernel⟩⟩

theorem test_meets_apply_mode_and_swap_complete :
    (∃ f, ∃ k, ∃ ecc, ∃ s : State, (Instr.stageApply f k false ecc).wf = true ∧ s.fires f (.stageApply k.val false ecc) = true) ∧
    (∃ f, ∃ k, ∃ s : State, (Instr.stageApply f k true false).wf = true ∧ s.fires f (.stageApply k.val true false) = true ∧
      (s.applyPlan k.val).held = []) ∧
    (∃ f, ∃ p, ∃ m, ∃ s : State, (Instr.modeSet f p m).wf = true ∧ s.fires f (.modeSet p.val m) = true ∧ (s.switchesNow p.val =
      true ∨ s.stg.switch.get [] p.val = [])) ∧
    (∃ f, ∃ ip, ∃ i, ∃ o, ∃ a, ∃ b, ∃ s : State, (Instr.spareSwap f ip i o).wf = true ∧ s.fires f (.spareSwap ip.val i.val o.val)
      = true ∧ s.posOfLane ip.val i.val = some a ∧ s.posOfLane ip.val o.val = some b ∧ s.swapRefusal ip.val i.val o.val s.now =
      none) :=
  ⟨⟨act, 0, false, locked, by decide +kernel⟩,
    ⟨act, 0, locked, by decide +kernel⟩,
    ⟨act, 0, .pass, wired, by decide +kernel⟩,
    ⟨act, 0, 4, 0, 4, 0, linked, by decide +kernel⟩⟩

theorem test_meets_lane_stimulus_and_trigger_actions_complete :
    (∃ f, ∃ sc, ∃ s : State, (Instr.adaptFreeze f sc).wf = true ∧ s.fires f (.freeze true (freezeTarget sc)) = true) ∧
    (∃ f, ∃ sc, ∃ s : State, (Instr.adaptUnfreeze f sc).wf = true ∧ s.fires f (.freeze false (freezeTarget sc)) = true) ∧
    (∃ f, ∃ p, ∃ g, ∃ s : State, (Instr.stimStart f p g).wf = true ∧ s.fires f (.stimStart p.val g) = true) ∧
    (∃ f, ∃ p, ∃ s : State, (Instr.stimStop f p).wf = true ∧ s.fires f (.stimStop p.val) = true ∧ s.calm = true ∧ (s.pathAt
      p.val).stimGen = true) ∧
    (∃ f, ∃ p, ∃ d, ∃ s : State, (Instr.triggerArm f p d).wf = true ∧ s.fires f (.trigger true p.val d.toNat) = true) ∧
    (∃ f, ∃ p, ∃ d, ∃ s : State, (Instr.triggerDisarm f p d).wf = true ∧ s.fires f (.trigger false p.val d.toNat) = true) ∧
    (∃ f, ∃ ip, ∃ v, ∃ s : State, (Instr.markSend f ip v).wf = true ∧ s.fires f (.markSend ip.val v.toNat) = true ∧ s.calm = true) :=
  ⟨⟨act, .all, locked, by decide +kernel⟩,
    ⟨act, .path 0, locked, by decide +kernel⟩,
    ⟨act, 0, true, driven, by decide +kernel⟩,
    ⟨act, 0, driven.modPath 0 (fun p => { p with stim := true, stimGen := true }), by decide +kernel⟩,
    ⟨act, 0, 3, locked, by decide +kernel⟩,
    ⟨act, 0, 3, locked, by decide +kernel⟩,
    ⟨act, 0, 5, linked, by decide +kernel⟩⟩

theorem test_meets_rekey_actions_complete :
    (∃ f, ∃ a, ∃ b, ∃ s : State, (Instr.rekeyStart f a b).wf = true ∧ s.fires f (.rekey 0 a.val b.val) = true ∧ s.rekeyResult 0
      a.val b.val = 0) ∧
    (∃ f, ∃ a, ∃ b, ∃ s : State, (Instr.rekeyPause f a b).wf = true ∧ s.fires f (.rekey 1 a.val b.val) = true ∧ s.rekeyResult 1
      a.val b.val = 0 ∧ s.env.rkState = 1) ∧
    (∃ f, ∃ a, ∃ b, ∃ s : State, (Instr.rekeyResume f a b).wf = true ∧ s.fires f (.rekey 2 a.val b.val) = true ∧ s.rekeyResult 2
      a.val b.val = 0 ∧ s.env.rkState = 2) ∧
    (∃ f, ∃ a, ∃ b, ∃ s : State, (Instr.rekeyRetire f a b).wf = true ∧ s.fires f (.rekey 3 a.val b.val) = true ∧ s.rekeyResult 3
      a.val b.val = 0 ∧ a.val ≠ 0) :=
  ⟨⟨act, 1, 2, ((locked.modPwr (fun p => { p with rootId := 1 })).modEnv (fun e => { e with slot := e.slot.set none 2 (some 7)
      })).modStrm 0 (fun x => { x with slot := some 1 }), by decide +kernel⟩,
    ⟨act, 1, 2, rekeying 1, by decide +kernel⟩,
    ⟨act, 1, 2, rekeying 2, by decide +kernel⟩,
    ⟨act, 1, 2, rekeying 3, by decide +kernel⟩⟩

theorem test_meets_anchors_and_wiring_complete :
    (∃ l, ∃ pos, ∃ levels, ∃ inv, ∃ ident, ∃ s : State, (Instr.anchorMatch l pos levels).wf = true ∧ s.still = false ∧ s.receives
      l.val = true ∧ anchorDecode levels = some (inv, ident) ∧ (s.laneAt l.val).anchor = .search ∧ (s.noLadder = true ∨ s.calm =
      true ∧ inv = (s.laneAt l.val).rxInv)) ∧
    (∃ l, ∃ pos, ∃ levels, ∃ inv, ∃ ident, ∃ s : State, (Instr.anchorMatch l pos levels).wf = true ∧ s.still = false ∧ s.receives
      l.val = true ∧ anchorDecode levels = some (inv, ident) ∧ s.noLadder = true ∧ (∀ ip k, s.portOfLane l.val = some (ip, k) →
      (s.portAt ip).lad.step ≠ 4) ∧ pos = (s.laneAt l.val).matchPos + anchorSpacing ∧ ((s.laneAt l.val).anchor = .candidate ∧
      BitVec.ofNat 16 (ident % 2 ^ 16) = (s.laneAt l.val).count + 1 ∨ (s.laneAt l.val).anchor = .locked)) ∧
    (∃ l, ∃ s : State, (Instr.anchorMiss l).wf = true ∧ s.still = false ∧ (s.laneAt l.val).anchor = .candidate) ∧
    (∃ l, ∃ s : State, (Instr.anchorMiss l).wf = true ∧ s.still = false ∧ (s.laneAt l.val).anchor = .locked ∧ (s.noLadder = true ∨
      s.calm = true)) ∧
    (∃ l, ∃ legs, ∃ kind, ∃ s : State, (Instr.txShort l legs kind).wf = true ∧ s.still = false ∧ s.laneOn l.val = true) ∧
    (∃ l, ∃ clean, ∃ s : State, (Instr.txShortRetest l clean).wf = true ∧ s.still = false ∧ (s.laneAt l.val).txHiZ = true) ∧
    (∃ l, ∃ fp, ∃ fn, ∃ s : State, (Instr.receiverDetection l fp fn).wf = true ∧ s.still = false ∧ s.laneOn l.val = true) :=
  ⟨⟨0, 0, anchorOne, false, 1, laned (fun x => { x with st := .run }), by decide +kernel⟩,
    ⟨0, anchorSpacing, anchorOne, false, 1, up.modLane 0 (fun x => { x with st := .run, anchor := .locked }),
      by and_intros <;> first | decide +kernel | exact fun _ _ h => (nomatch h.symm.trans (by decide +kernel : _ = none))⟩,
    ⟨0, laned (fun x => { x with anchor := .candidate }), by decide +kernel⟩,
    ⟨0, laned (fun x => { x with anchor := .locked }), by decide +kernel⟩,
    ⟨0, 1, 0, laned (fun x => { x with st := .run }), by decide +kernel⟩,
    ⟨0, true, laned (fun x => { x with txHiZ := true }), by decide +kernel⟩,
    ⟨0, true, true, laned (fun x => { x with st := .run }), by decide +kernel⟩⟩

theorem test_meets_receiver_conditions_complete :
    (∃ l, ∃ s : State, (Instr.rxLos l).wf = true ∧ s.still = false ∧ s.laneOn l.val = true) ∧
    (∃ l, ∃ s : State, (Instr.cdrUnlock l).wf = true ∧ s.still = false ∧ s.laneOn l.val = true) ∧
    (∃ l, ∃ s : State, (Instr.blockLockLoss l).wf = true ∧ s.still = false ∧ s.laneOn l.val = true) ∧
    (∃ l, ∃ s : State, (Instr.dspError l).wf = true ∧ s.still = false ∧ s.laneOn l.val = true) ∧
    (∃ l, ∃ samples, ∃ ev, ∃ s : State, (Instr.berIntervalEnd l samples).wf = true ∧ s.still = false ∧ s.laneOn l.val = true ∧
      l.val < 128 ∧ (if l.val < 64 ∧ 10 ≤ s.curRate l.val then ev = (s.laneAt l.val).rsCorr else s.monitors l.val = true ∧ ev =
      (wskCount (s.wskLevel l.val) (signed7 (s.bits (laneBase l.val + 0x30) 14 8)) samples).1)) ∧
    (∃ l, ∃ s : State, (Instr.cdrLock l).wf = true ∧ s.still = false) ∧
    (∃ l, ∃ s : State, (Instr.rxLosEnd l).wf = true ∧ s.still = false) ∧
    (∃ l, ∃ s : State, (Instr.blockLockAcquired l).wf = true ∧ s.still = false) :=
  ⟨⟨0, laned (fun x => { x with st := .run }), by decide +kernel⟩,
    ⟨0, laned (fun x => { x with st := .run }), by decide +kernel⟩,
    ⟨0, laned (fun x => { x with st := .run }), by decide +kernel⟩,
    ⟨0, laned (fun x => { x with st := .run }), by decide +kernel⟩,
    ⟨0, [], 0, laned (fun x => { x with st := .run, wskOp := 3 }), by decide +kernel⟩,
    ⟨0, up, by decide +kernel⟩,
    ⟨0, up, by decide +kernel⟩,
    ⟨0, up, by decide +kernel⟩⟩

theorem test_meets_adaptation_and_quads_complete :
    (∃ l, ∃ pos, ∃ ctle, ∃ ffe, ∃ dfe, ∃ main, ∃ req, ∃ b, ∃ s : State, (Instr.adaptationUpdate l pos ctle ⟨ffe, dfe, main⟩
      req).wf = true ∧ s.still = false ∧ s.receives l.val = true ∧ b = laneBase l.val + 0x18) ∧
    (∃ t, ∃ q, ∃ s : State, (Instr.pllUnlock t q).wf = true ∧ s.still = false) ∧
    (∃ t, ∃ q, ∃ s : State, (Instr.clockMonitor t q).wf = true ∧ s.still = false) ∧
    (∃ q, ∃ s : State, (Instr.quadPllRelock q).wf = true ∧ s.still = false) ∧
    (∃ q, ∃ good, ∃ terms, ∃ s : State, (Instr.calibration q good terms).wf = true ∧ s.still = false) ∧
    (∃ q, ∃ s : State, (Instr.quadConfigEcc q).wf = true ∧ s.still = false) :=
  ⟨⟨0, 0, 0, List.replicate 24 0, 0, 0, .none, laneBase 0 + 0x18, laned (fun x => { x with st := .run }), by decide +kernel⟩,
    ⟨0, 0, up, by decide +kernel⟩,
    ⟨0, 0, up, by decide +kernel⟩,
    ⟨0, up, by decide +kernel⟩,
    ⟨0, [true, true, true, true], [(0, 0), (0, 0), (0, 0), (0, 0)], up, by decide +kernel⟩,
    ⟨0, up, by decide +kernel⟩⟩

theorem test_meets_lane_states_and_windsock_complete :
    (∃ l, ∃ s : State, (Instr.laneDozeEntry l).wf = true ∧ s.still = false ∧ (s.laneAt l.val).st = .run ∧ s.pcieLane l.val = true) ∧
    (∃ l, ∃ s : State, (Instr.laneDozeExit l).wf = true ∧ s.still = false ∧ (s.laneAt l.val).st = .doze) ∧
    (∃ l, ∃ s : State, (Instr.mooredExitComplete l).wf = true ∧ s.still = false ∧ (s.laneAt l.val).st = .moored ∧ (s.laneAt
      l.val).exiting = true ∧ (∀ n, s.pathOfLane l.val = some n → (s.pathAt n).phase ≠ .wake ∨ ∃ m ∈ s.dLanes n ++ s.iLanes n, m ≠
      l.val ∧ (s.laneAt m).exiting = true)) ∧
    (∃ l, ∃ c, ∃ s : State, (Instr.wskPoint l c).wf = true ∧ s.still = false ∧ (s.laneAt l.val).st = .run) ∧
    (∃ l, ∃ cause, ∃ points, ∃ s : State, (Instr.wskScanEnd l cause points).wf = true ∧ s.still = false ∧ (s.laneAt l.val).wskOp ≠
      0) ∧
    (∃ p, ∃ d, ∃ k, ∃ r, ∃ l, ∃ side, ∃ s : State, (Instr.marginingCommand (.path p d k) r .capabilities).wf = true ∧ s.still =
      false ∧ s.pciePath p.val = true ∧ (s.pathAt p.val).retimer ≠ 0 ∧ r.val / 2 = (s.pathAt p.val).retimer ∧ k.val < s.dpWidth
      (s.pathD p.val) ∧ side = (if (r.val % 2 = 1) = (s.isDpp p.val .dSide = true) then Side.dSide else .iSide) ∧ l = s.sideLane
      p.val side k.val) ∧
    (∃ k, ∃ s : State, (Instr.marginingCommand (.store k) 1 .capabilities).wf = true ∧ s.still = false ∧ (s.laneAt (128 +
      k.val)).st = .run) :=
  ⟨⟨64, (moded .pass).modLane 64 (fun x => { x with st := .run }), by decide +kernel⟩,
    ⟨0, laned (fun x => { x with st := .doze }), by decide +kernel⟩,
    ⟨127, up.modLane 127 (fun x => { x with st := .moored, exiting := true }),
      by and_intros <;> first | decide +kernel | exact fun _ h => (nomatch h.symm.trans (by decide +kernel : _ = none))⟩,
    ⟨0, 0, laned (fun x => { x with st := .run }), by decide +kernel⟩,
    ⟨0, .complete, [], laned (fun x => { x with wskOp := 1 }), by decide +kernel⟩,
    ⟨0, .toI, 0, 2, 0, Side.iSide, (moded .pass).modPath 0 (fun p => { p with retimer := 1 }), by decide +kernel⟩,
    ⟨0, up.modLane 128 (fun x => { x with st := .run }), by decide +kernel⟩⟩

theorem test_meets_negotiation_completes :
    (∃ t, ∃ l, ∃ bits, ∃ inv, ∃ b, ∃ ip, ∃ k, ∃ s : State, (Instr.adv l ⟨t, bits⟩).wf = true ∧ s.still = false ∧ l.val < 64 ∧
      s.portOfLane l.val = some (ip, k) ∧ s.climbing ip = true ∧ (s.portAt ip).lad.step = 1 ∧ setDecode bits = some (inv, b) ∧
      setValid (negSetOf b) = true ∧ (negSetOf b).setType = 1) ∧
    (∃ t, ∃ l, ∃ bits, ∃ inv, ∃ b, ∃ ip, ∃ k, ∃ c, ∃ s : State, (Instr.conf l ⟨t, bits⟩).wf = true ∧ s.still = false ∧ l.val < 64
      ∧ s.portOfLane l.val = some (ip, k) ∧ s.climbing ip = true ∧ (s.portAt ip).lad.step = 1 ∧ setDecode bits = some (inv, b) ∧
      setValid (negSetOf b) = true ∧ (negSetOf b).setType = 2 ∧ s.setIdentity ip l.val (negSetOf b) = true ∧ 7 ≤ (s.ltrAt
      l.val).confRx ∧ (s.ltrAt l.val).sends = 2 ∧ (s.ltrAt l.val).confAt = some c ∧ c + confTime ≤ max s.now t ∧ (s.ltrAt
      l.val).negotiated = false) ∧
    (∃ t, ∃ l, ∃ bits, ∃ inv, ∃ b, ∃ ip, ∃ k, ∃ s : State, (Instr.hold l ⟨t, bits⟩).wf = true ∧ s.still = false ∧ l.val < 64 ∧
      s.portOfLane l.val = some (ip, k) ∧ s.climbing ip = true ∧ setDecode bits = some (inv, b) ∧ setValid (negSetOf b) = true ∧
      (negSetOf b).setType = 3 ∧ (s.noLadder = true ∨ s.calm = true ∧ inv = (s.laneAt l.val).rxInv)) ∧
    (∃ t, ∃ l, ∃ bits, ∃ ip, ∃ k, ∃ s : State, (Instr.adv l ⟨t, bits⟩).wf = true ∧ s.still = false ∧ l.val < 64 ∧ s.portOfLane
      l.val = some (ip, k) ∧ s.climbing ip = true ∧ (∀ inv b, setDecode bits = some (inv, b) → setValid (negSetOf b) = false)) ∧
    (∃ t, ∃ ip, ∃ h, ∃ s : State, (Instr.holdTimeout ⟨t, ip⟩).wf = true ∧ s.still = false ∧ s.climbing ip.val = true ∧ (s.portAt
      ip.val).lad.hold = some h ∧ h + 100 * ms ≤ max s.now t) ∧
    (∃ t, ∃ ip, ∃ s : State, (Instr.negotiationEnd t ip).wf = true ∧ s.still = false ∧ s.advances ip.val = true ∧ (s.portAt
      ip.val).lad.step = 1 ∧ s.ladderKeeps = true ∧ 1 ≤ s.ipLanes ip.val ∧ (∀ k ∈ s.ipPositions ip.val, (s.ltrAt (s.cfgLane ip.val
      k)).negotiated = true) ∧ (∀ r ∈ [1, 2, 3], s.needAt ip.val r ≤ s.ipLanes ip.val) ∧ s.ladLead ip.val ≠ (s.portAt
      ip.val).lad.partnerLead ∧ 1 ≤ s.ladMax ip.val ∧ 1 ≤ (s.portAt ip.val).lad.partnerMax) ∧
    (∃ t, ∃ ip, ∃ s : State, (Instr.negotiationEnd t ip).wf = true ∧ s.still = false ∧ s.advances ip.val = true ∧ (s.portAt
      ip.val).lad.step = 1 ∧ (∀ k ∈ s.ipPositions ip.val, (s.ltrAt (s.cfgLane ip.val k)).negotiated = false ∧ (s.ltrAt (s.cfgLane
      ip.val k)).confRx < 8) ∧ (s.portAt ip.val).lad.since + 10 * ms ≤ max s.now t) ∧
    (∃ l, ∃ kind, ∃ n, ∃ s : State, (Instr.partnerClassifyTimeout l kind).wf = true ∧ s.still = false ∧ s.pathOfLane l.val = some
      n ∧ l.val < 64 ∧ s.advances (s.pathI n) = true ∧ (s.portAt (s.pathI n)).lad.step = 1 ∧ (s.ltrAt l.val).setRx = 0) ∧
    (∃ l, ∃ kind, ∃ n, ∃ s : State, (Instr.partnerClassifyTimeout l kind).wf = true ∧ s.still = false ∧ s.pathOfLane l.val = some
      n ∧ 64 ≤ l.val ∧ (s.pathAt n).dTrain = 1) :=
  ⟨⟨0, 0, setAdv, false, [1, 1, 0, 0, 0, 6, 3, 0, 142], 0, 0, ladder (fun x => { x with step := 1 }), by decide +kernel⟩,
    ⟨ms, 0, setConf, false, [2, 1, 0, 0, 0, 6, 3, 0, 187], 0, 0, 0, (ladder (fun x => { x with step := 1 })).modLtr 0 (fun x => {
      x with confRx := 7, sends := 2, confAt := some 0 }), by decide +kernel⟩,
    ⟨0, 0, setHold, false, [3, 1, 0, 0, 0, 6, 3, 0, 168], 0, 0, ladder (fun x => { x with step := 1 }), by decide +kernel⟩,
    ⟨0, 0, [], 0, 0, ladder (fun x => { x with step := 1 }), by and_intros <;> first | decide +kernel | exact nofun⟩,
    ⟨100 * ms, 0, 0, ladder (fun x => { x with step := 1, hold := some 0 }), by decide +kernel⟩,
    ⟨0, 0, agreed, by decide +kernel⟩,
    ⟨10 * ms, 0, ladder (fun x => { x with step := 1 }), by decide +kernel⟩,
    ⟨0, 0, 0, ladder (fun x => { x with step := 1 }), by decide +kernel⟩,
    ⟨64, 0, 0, (moded .pass).modPath 0 (fun p => { p with dTrain := 1 }), by decide +kernel⟩⟩

theorem test_meets_training_frames_and_ladder_complete :
    (∃ l, ∃ pos, ∃ levels, ∃ inv, ∃ c, ∃ ip, ∃ k, ∃ s : State, (Instr.trainingFrame l pos levels).wf = true ∧ s.still = false ∧
      s.portOfLane l.val = some (ip, k) ∧ frameDecode levels = some (inv, c) ∧ (s.portAt ip).lad.step = 3 ∧ (s.portAt
      ip).lad.changing = none ∧ s.advances ip = true ∧ Nat.testBit (s.portAt ip).lad.eligible.toNat k = true ∧ s.receives l.val =
      true ∧ (s.ltrAt l.val).frm ≠ .search ∧ pos = (s.ltrAt l.val).frmPos + frameSpacing ∧ ctrlBits (BitVec.ofNat 64 c) 53 52 ≠ 3 ∧
      ctrlBits (BitVec.ofNat 64 c) 53 52 + 1 = (s.portAt ip).lad.rate ∧ (s.ltrAt l.val).reqSeq ≠ some (ctrlBits (BitVec.ofNat 64 c)
      35 32)) ∧
    (∃ ip, ∃ r, ∃ s : State, (Instr.rateChangeIdleEnd ip).wf = true ∧ s.still = false ∧ s.advances ip.val = true ∧ s.ladderKeeps =
      true ∧ (s.portAt ip.val).lad.changing = some r) ∧
    (∃ ip, ∃ rate, ∃ s : State, (Instr.offer ip rate).wf = true ∧ s.still = false ∧ s.climbing ip.val = true ∧ s.ladderKeeps =
      true ∧ s.ladLead ip.val = false ∧ (s.portAt ip.val).lad.step = 7 ∧ rate.val = (s.portAt ip.val).lad.rate + 1 ∧ rate.val ≤
      s.ladMax ip.val ∧ (∀ m ∈ (s.portAt ip.val).lad.sends, m.2.1 ≠ rate.val)) ∧
    (∃ ip, ∃ rate, ∃ s : State, (Instr.offer ip rate).wf = true ∧ s.still = false ∧ s.climbing ip.val = true ∧ s.ladLead ip.val =
      false ∧ (s.portAt ip.val).lad.step = 7 ∧ rate.val = (s.portAt ip.val).lad.rate + 1 ∧ s.ladMax ip.val < rate.val ∧ (∀ m ∈
      (s.portAt ip.val).lad.sends, m.2.1 ≠ rate.val)) ∧
    (∃ ip, ∃ rate, ∃ s : State, (Instr.accept ip rate).wf = true ∧ s.still = false ∧ s.climbing ip.val = true ∧ s.ladderKeeps =
      true ∧ s.ladLead ip.val = true ∧ (s.portAt ip.val).lad.step = 7 ∧ rate.val = (s.portAt ip.val).lad.rate + 1) ∧
    (∃ ip, ∃ rate, ∃ s : State, (Instr.decline ip rate).wf = true ∧ s.still = false ∧ s.climbing ip.val = true ∧ s.ladLead ip.val
      = true ∧ (s.portAt ip.val).lad.step = 7 ∧ rate.val = (s.portAt ip.val).lad.rate + 1 ∧ s.suffices ip.val (s.portAt
      ip.val).lad.rate = true ∧ ((slowFallback ip.val s).portAt ip.val).lad.rate = (s.portAt ip.val).lad.rate ∧ s.needAt ip.val
      (s.portAt ip.val).lad.rate ≤ ((positions (s.portAt ip.val).lad.eligible).filter (fun k => (slowFallback ip.val s).mayCarry
      ((slowFallback ip.val s).ipLane ip.val k))).length) ∧
    (∃ ip, ∃ rate, ∃ mask, ∃ s : State, (Instr.done ip rate mask).wf = true ∧ s.still = false ∧ s.climbing ip.val = true ∧
      s.ladLead ip.val = false ∧ (s.portAt ip.val).lad.step = 7 ∧ (s.portAt ip.val).lad.rate = rate.val ∧ s.suffices ip.val rate.val
      = true ∧ s.needAt ip.val rate.val ≤ ((positions ((s.portAt ip.val).lad.eligible &&& mask)).filter (fun k => s.mayCarry
      (s.ipLane ip.val k))).length) ∧
    (∃ ip, ∃ s : State, (Instr.ladderStepTimeout ip).wf = true ∧ s.still = false ∧ s.advances ip.val = true ∧ s.ladderKeeps = true
      ∧ ((s.portAt ip.val).lad.step = 6 ∨ (s.portAt ip.val).lad.step = 7) ∧ (s.portAt ip.val).lad.resumed = false) :=
  ⟨⟨0, 4096, frameZero, false, 0, 0, 0, ((ladder (fun x => { x with step := 3, rate := 1, eligible := 1 })).modLane 0 (fun x => {
      x with st := .run })).modLtr 0 (fun x => { x with frm := .locked }), by decide +kernel⟩,
    ⟨0, 2, ladder (fun x => { x with step := 2, changing := some 2 }), by decide +kernel⟩,
    ⟨0, 2, (ladder (fun x => { x with step := 7, rate := 1 })).setReg 0x300000 0x08420300#32, by decide +kernel⟩,
    ⟨0, 2, (ladder (fun x => { x with step := 7, rate := 1 })).setReg 0x300000 0x08420100#32, by decide +kernel⟩,
    ⟨0, 2, (ladder (fun x => { x with step := 7, rate := 1 })).setReg 0x300000 0x08420B00#32, by decide +kernel⟩,
    ⟨0, 2, (carrying (ladder (fun x => { x with step := 7, rate := 1, eligible := 0x3F }))).setReg 0x300000 0x08420B00#32,
      by decide +kernel⟩,
    ⟨0, 1, 0x3F, (carrying (ladder (fun x => { x with step := 7, rate := 1, eligible := 0x3F }))).setReg 0x300000 0x08420300#32,
      by decide +kernel⟩,
    ⟨0, ladder (fun x => { x with step := 6 }), by decide +kernel⟩⟩

theorem test_meets_precoding_and_line_test_complete :
    (∃ ip, ∃ mask, ∃ s : State, (Instr.precode ip mask).wf = true ∧ s.still = false ∧ s.climbing ip.val = true ∧ s.ladderKeeps =
      true ∧ (s.portAt ip.val).lad.step = 5 ∧ (s.portAt ip.val).lad.precAck = none) ∧
    (∃ ip, ∃ mask, ∃ s : State, (Instr.precodeAck ip mask).wf = true ∧ s.still = false ∧ s.advances ip.val = true ∧ (s.portAt
      ip.val).lad.step = 5 ∧ (s.portAt ip.val).lad.fellBack = false) ∧
    (∃ ip, ∃ pos, ∃ tx, ∃ rx, ∃ s : State, (Instr.precodeStart ip pos).wf = true ∧ s.still = false ∧ s.advances ip.val = true ∧
      s.ladderKeeps = true ∧ (s.portAt ip.val).lad.fellBack = false ∧ (s.portAt ip.val).lad.precPeer = some tx ∧ (s.portAt
      ip.val).lad.precAck = some rx) ∧
    (∃ ip, ∃ rate, ∃ s : State, (Instr.testStart ip rate).wf = true ∧ s.still = false ∧ s.climbing ip.val = true ∧ s.ladLead
      ip.val = false ∧ (s.portAt ip.val).lad.rate = rate.val ∧ (s.portAt ip.val).lad.step = 6) ∧
    (∃ ip, ∃ results, ∃ s : State, (Instr.prbsTestEnd ip results).wf = true ∧ s.still = false ∧ s.advances ip.val = true ∧
      s.ladderKeeps = true ∧ (s.portAt ip.val).lad.step = 6 ∧ (s.portAt ip.val).lad.testPeer = none) ∧
    (∃ ip, ∃ rate, ∃ mask, ∃ own, ∃ s : State, (Instr.testResult ip rate mask).wf = true ∧ s.still = false ∧ s.climbing ip.val =
      true ∧ s.ladLead ip.val = false ∧ (s.portAt ip.val).lad.step = 6 ∧ (s.portAt ip.val).lad.rate = rate.val ∧ (s.portAt
      ip.val).lad.testOwn = some own ∧ s.stepNeed ip.val rate.val ≤ popCount (own &&& mask &&& (s.portAt ip.val).lad.eligible)) :=
  ⟨⟨0, 1, ladder (fun x => { x with step := 5 }), by decide +kernel⟩,
    ⟨0, 1, ladder (fun x => { x with step := 5 }), by decide +kernel⟩,
    ⟨0, 0, 1, 2, ladder (fun x => { x with step := 5, precPeer := some 1, precAck := some 2 }), by decide +kernel⟩,
    ⟨0, 1, (ladder (fun x => { x with step := 6, rate := 1 })).setReg 0x300000 0x08420300#32, by decide +kernel⟩,
    ⟨0, [], ladder (fun x => { x with step := 6 }), by decide +kernel⟩,
    ⟨0, 1, 0x3F, 0x3F, (ladder (fun x => { x with step := 6, rate := 1, testOwn := some 0x3F, eligible := 0x3F })).setReg 0x300000
      0x08420300#32, by decide +kernel⟩⟩

theorem test_meets_pcie_training_completes :
    (∃ t, ∃ p, ∃ k, ∃ inv, ∃ ts, ∃ s : State, (Instr.tsOrderedSet t (.path p .toI k) inv ts).wf = true ∧ s.still = false ∧
      s.pciePath p.val = true ∧ k.val < s.dpWidth (s.pathD p.val)) ∧
    (∃ t, ∃ l : Fin 16, ∃ inv, ∃ ts, ∃ v, ∃ s : State, (Instr.tsOrderedSet t (.store l) inv ts).wf = true ∧ s.still = false ∧
      (s.laneAt (128 + l.val)).st = .run ∧ ts.laneNum = some v) ∧
    (∃ t, ∃ p, ∃ s : State, (Instr.eqEvaluationEnd t p .dSide).wf = true ∧ s.still = false ∧ s.pciePath p.val = true ∧ (s.pathAt
      p.val).mode ≠ .pass) ∧
    (∃ p, ∃ d, ∃ mask, ∃ k, ∃ o, ∃ s : State, (Instr.electricalIdleEntry p d mask k o).wf = true ∧ s.still = false ∧ s.pathEn
      p.val = true ∧ ((s.pathAt p.val).mode = .pass ∨ (s.pathAt p.val).mode.guardFam = true)) ∧
    (∃ t, ∃ p, ∃ d, ∃ n : Nat, ∃ a : Int, ∃ bits, ∃ s : State, (Instr.skpOrderedSet t p d ⟨n, a, bits⟩).wf = true ∧ s.still =
      false ∧ s.pciePath p.val = true ∧ ((s.pathAt p.val).mode = .pass ∨ d = .toI) ∧ 0 ≤ (n : Int) + a) ∧
    (∃ p, ∃ s : State, (Instr.linkDown p).wf = true ∧ s.still = false ∧ s.pathEn p.val = true ∧ (s.pathAt p.val).dTrain = 2 ∧
      s.armed (srcPath p.val 9) = true) :=
  ⟨⟨0, 0, 0, false, { (default : TsSet) with laneNum := some 3 }, moded .pass, by decide +kernel⟩,
    ⟨0, 0, false, { (default : TsSet) with laneNum := some 3 }, 3, up.modLane 128 (fun x => { x with st := .run }),
      by decide +kernel⟩,
    ⟨0, 0, moded .guard, by decide +kernel⟩,
    ⟨0, .toI, 1, 0, 0, moded .pass, by decide +kernel⟩,
    ⟨0, 0, .toI, 1, 1, [], moded .pass, by decide +kernel⟩,
    ⟨0, (moded .pass).modPath 0 (fun p => { p with dTrain := 2 }), by decide +kernel⟩⟩

theorem test_meets_ethernet_and_link_active_complete :
    (∃ p, ∃ page, ∃ r, ∃ s : State, (Instr.anPage p .toI page r).wf = true ∧ s.still = false ∧ s.ethPath p.val = true) ∧
    (∃ p, ∃ s : State, (Instr.segmentTrainingComplete p .dSide ⟨0, 0, []⟩).wf = true ∧ s.still = false ∧ s.ethPath p.val = true ∧
      (s.pathAt p.val).dTrain = 1) ∧
    (∃ p, ∃ res, ∃ s : State, (Instr.segmentTrainingComplete p .dSide res).wf = true ∧ s.still = false ∧ s.ethPath p.val = true ∧
      (s.pathAt p.val).dTrain = 1) ∧
    (∃ p, ∃ res, ∃ s : State, (Instr.segmentTrainingComplete p .iSide res).wf = true ∧ s.still = false ∧ s.ethPath p.val = true ∧
      (s.pathAt p.val).mode = .pass ∧ (s.pathAt p.val).segReady = true ∧ (s.pathAt p.val).iTrain = 1) ∧
    (∃ t, ∃ p, ∃ s : State, (Instr.linkActive t p).wf = true ∧ s.still = false ∧ s.pathEn p.val = true ∧ (s.pathAt p.val).safe =
      false ∧ (s.pathAt p.val).phase = .train) ∧
    (∃ p, ∃ s : State, (Instr.trainingTimeout p .iSide).wf = true ∧ s.still = false ∧ s.pathEn p.val = true ∧ (s.pathAt
      p.val).mode = .pass ∧ (s.pathAt p.val).iTrain = 1) ∧
    (∃ p, ∃ s : State, (Instr.trainingTimeout p .dSide).wf = true ∧ s.still = false ∧ s.pathEn p.val = true ∧ (s.pathAt
      p.val).dTrain = 1 ∧ (s.pathAt p.val).miscD = false ∧ s.armed (srcPath p.val 6) = true) :=
  ⟨⟨0, 0, none, ether id, by decide +kernel⟩,
    ⟨0, ether (fun p => { p with dTrain := 1 }), by decide +kernel⟩,
    ⟨0, ⟨0, 0, []⟩, ether (fun p => { p with dTrain := 1 }), by decide +kernel⟩,
    ⟨0, ⟨0, 0, []⟩, ether (fun p => { p with segReady := true, iTrain := 1 }), by decide +kernel⟩,
    ⟨0, 0, (moded .pass).modPath 0 (fun p => { p with phase := .train }), by decide +kernel⟩,
    ⟨0, (moded .pass).modPath 0 (fun p => { p with iTrain := 1 }), by decide +kernel⟩,
    ⟨0, (moded .pass).modPath 0 (fun p => { p with dTrain := 1 }), by decide +kernel⟩⟩

theorem test_meets_tunnel_flits_complete :
    (∃ t, ∃ ip, ∃ f, ∃ units, ∃ n, ∃ h, ∃ pl, ∃ s : State, (Instr.data t ip f units).wf = true ∧ s.receivesNext ip.val f n 1 0 =
      true ∧ s.flitHead ip.val f = some (h, pl) ∧ (s.pathAt n).mode.guardFam = true ∧ (s.pathAt n).phase ≠ .drain ∧ (s.pathAt
      n).safe = false ∧ (s.portAt ip.val).link.tunnel = 1 ∧ h.lf % 128 = (s.portAt ip.val).link.rxCount % 128) ∧
    (∃ t, ∃ ip, ∃ f, ∃ n, ∃ h, ∃ pl, ∃ s : State, (Instr.lineEvent t ip f).wf = true ∧ s.receivesNext ip.val f n 2 1 = true ∧
      s.flitHead ip.val f = some (h, pl) ∧ (s.portAt ip.val).link.tunnel = 1) ∧
    (∃ t, ∃ ip, ∃ f, ∃ n, ∃ h, ∃ pl, ∃ s : State, (Instr.refuse t ip f).wf = true ∧ s.receivesNext ip.val f n 2 2 = true ∧
      s.flitHead ip.val f = some (h, pl) ∧ (s.portAt ip.val).link.peerRefused = []) :=
  ⟨⟨0, 0, flit 1 0 1 [], [], 0, flitHdr 1 0 1, fit 256 0 [], link (fun l => { l with tunnel := 1 }), ⟨by simp [Instr.wf,
      flit_wf], flit_received (by decide +kernel) (by decide +kernel)⟩⟩,
    ⟨0, 0, flit 2 0x10 1 [], 0, flitHdr 2 0x10 1, fit 256 0 [], link (fun l => { l with tunnel := 1 }), ⟨by simp [Instr.wf,
      flit_wf], flit_received (by decide +kernel) (by decide +kernel)⟩⟩,
    ⟨0, 0, flit 2 0x20 1 [0, 0, 1, 0, 0, 1], 0, flitHdr 2 0x20 1, fit 256 0 [0, 0, 1, 0, 0, 1], linked, ⟨by simp [Instr.wf,
      flit_wf], flit_received (by decide +kernel) (by decide +kernel)⟩⟩⟩

theorem test_meets_control_flits_complete :
    (∃ t, ∃ ip, ∃ f, ∃ n, ∃ h, ∃ pl, ∃ s : State, (Instr.faultFlit t ip f).wf = true ∧ s.receivesNext ip.val f n 6 0 = true ∧
      s.flitHead ip.val f = some (h, pl) ∧ field pl 3 1 % 4 ≠ 2) ∧
    (∃ t, ∃ ip, ∃ f, ∃ n, ∃ h, ∃ pl, ∃ s : State, (Instr.mark t ip f).wf = true ∧ s.receivesNext ip.val f n 7 0 = true ∧
      s.flitHead ip.val f = some (h, pl) ∧ s.room 1 = true) ∧
    (∃ t, ∃ ip, ∃ f, ∃ n, ∃ h, ∃ pl, ∃ s : State, (Instr.mailboxFlit t ip f).wf = true ∧ s.receivesNext ip.val f n 2 6 = true ∧
      s.flitHead ip.val f = some (h, pl) ∧ s.gon.fwReady = true ∧ (s.mbAt (1 + ip.val)).inQ.length < 8) ∧
    (∃ t, ∃ ip, ∃ f, ∃ n, ∃ h, ∃ pl, ∃ s : State, (Instr.schedCtrlFlit t ip f).wf = true ∧ s.receivesNext ip.val f n 2 5 = true ∧
      s.flitHead ip.val f = some (h, pl) ∧ s.room 1 = true ∧ s.fatalRefuses (.ctrlFlit ip) = false ∧ field pl 0 1 = 1 ∧ field
      (entryAt pl 16 24 0) 0 1 = 4 ∧ (s.schedAt (field (entryAt pl 16 24 0) 2 2 % 1024)).valid = false) :=
  ⟨⟨0, 0, flit 6 0 1 [], 0, flitHdr 6 0 1, fit 256 0 [], linked, ⟨by simp [Instr.wf, flit_wf], flit_received (by decide +kernel)
      (by decide +kernel)⟩⟩,
    ⟨0, 0, flit 7 0 1 [], 0, flitHdr 7 0 1, fit 256 0 [], linked, ⟨by simp [Instr.wf, flit_wf], flit_received (by decide +kernel)
      (by decide +kernel)⟩⟩,
    ⟨0, 0, flit 2 0x60 1 [], 0, flitHdr 2 0x60 1, fit 256 0 [], linked, ⟨by simp [Instr.wf, flit_wf], flit_received
      (by decide +kernel) (by decide +kernel)⟩⟩,
    ⟨0, 0, flit 2 0x50 1 (1 :: List.replicate 15 0 ++ [4]), 0, flitHdr 2 0x50 1, fit 256 0 (1 :: List.replicate 15 0 ++ [4]),
      linked, ⟨by simp [Instr.wf, flit_wf], flit_received (by decide +kernel) (by decide +kernel)⟩⟩⟩

theorem test_meets_spool_flits_complete :
    (∃ t, ∃ ip, ∃ f, ∃ n, ∃ h, ∃ pl, ∃ k, ∃ i, ∃ j, ∃ s : State, (Instr.expectChunk t ip f).wf = true ∧ s.receivesNext ip.val f n
      2 9 = true ∧ s.flitHead ip.val f = some (h, pl) ∧ k = field pl 2 2 ∧ i = field pl 1 1 ∧ (s.strmAt k).next ≤ field pl 4 8 ∧
      (s.strmAt k).chunkSeq = field pl 4 8 ∧ j < 18 ∧ j ≠ i ∧ (s.strmAt k).chunks.get [] j = []) ∧
    (∃ t, ∃ ip, ∃ f, ∃ n, ∃ h, ∃ pl, ∃ k, ∃ s : State, (Instr.upload t ip f).wf = true ∧ s.receivesNext ip.val f n 2 8 = true ∧
      s.flitHead ip.val f = some (h, pl) ∧ field pl 0 1 = 1 ∧ k = field pl 2 2 ∧ s.stEn k = true ∧ s.leadOf (s.stPath k) = n ∧ field
      pl 12 2 ≠ 0) ∧
    (∃ t, ∃ ip, ∃ f, ∃ n, ∃ h, ∃ pl, ∃ k, ∃ s : State, (Instr.captureRelease t ip f).wf = true ∧ s.receivesNext ip.val f n 2 8 =
      true ∧ s.flitHead ip.val f = some (h, pl) ∧ field pl 0 1 = 2 ∧ k = field pl 2 2 ∧ s.stEn k = true ∧ s.leadOf (s.stPath k) = n
      ∧ 2 ≤ s.stRole k ∧ s.stRole k ≤ 4) ∧
    (∃ t, ∃ ip, ∃ f, ∃ n, ∃ h, ∃ pl, ∃ k, ∃ s : State, (Instr.statusReq t ip f).wf = true ∧ s.receivesNext ip.val f n 2 8 = true ∧
      s.flitHead ip.val f = some (h, pl) ∧ field pl 0 1 = 3 ∧ k = field pl 2 2 ∧ s.calm = true) :=
  ⟨⟨0, 0, flit 2 0x90 1 [1, 0, 0, 0, 0, 0, 0, 0, 0, 0, 0, 1], 0, flitHdr 2 0x90 1, fit 256 0 [1, 0, 0, 0, 0, 0, 0, 0, 0, 0, 0,
      1], 0, 0, 1, loading 2, ⟨by simp [Instr.wf, flit_wf], flit_received (by decide +kernel) (by decide +kernel)⟩⟩,
    ⟨0, 0, flit 2 0x80 1 [1, 0, 0, 0, 0, 0, 0, 0, 0, 0, 0, 1, 0, 1], 0, flitHdr 2 0x80 1, fit 256 0 [1, 0, 0, 0, 0, 0, 0, 0, 0, 0,
      0, 1, 0, 1], 0, loading 2, ⟨by simp [Instr.wf, flit_wf], flit_received (by decide +kernel) (by decide +kernel)⟩⟩,
    ⟨0, 0, flit 2 0x80 1 [2], 0, flitHdr 2 0x80 1, fit 256 0 [2], 0, loading 2, ⟨by simp [Instr.wf, flit_wf], flit_received
      (by decide +kernel) (by decide +kernel)⟩⟩,
    ⟨0, 0, flit 2 0x80 1 [3], 0, flitHdr 2 0x80 1, fit 256 0 [3], 0, loading 2, ⟨by simp [Instr.wf, flit_wf], flit_received
      (by decide +kernel) (by decide +kernel)⟩⟩⟩

theorem test_meets_unsequenced_flits_complete :
    (∃ t, ∃ ip, ∃ f, ∃ n, ∃ h, ∃ pl, ∃ s : State, (Instr.idle t ip f).wf = true ∧ s.hearsFlit ip.val f n (ofType 5 0) = true ∧
      s.flitHead ip.val f = some (h, pl) ∧ seqBefore h.ack (s.portAt ip.val).link.peerAck = false) ∧
    (∃ t, ∃ ip, ∃ f, ∃ n, ∃ h, ∃ pl, ∃ s : State, (Instr.ack t ip f).wf = true ∧ s.hearsFlit ip.val f n (ofType 3 0) = true ∧
      s.flitHead ip.val f = some (h, pl) ∧ h.ack = (s.portAt ip.val).link.peerAck) ∧
    (∃ t, ∃ ip, ∃ f, ∃ n, ∃ h, ∃ pl, ∃ a, ∃ b, ∃ s : State, (Instr.nak t ip f).wf = true ∧ s.hearsFlit ip.val f n (ofType 4 0) =
      true ∧ s.flitHead ip.val f = some (h, pl) ∧ nakEntries h pl = some [.seq a b]) ∧
    (∃ t, ∃ ip, ∃ f, ∃ n, ∃ h, ∃ pl, ∃ s : State, (Instr.beatEcho t ip f).wf = true ∧ s.hearsFlit ip.val f n (ofType 8 0) = true ∧
      s.flitHead ip.val f = some (h, pl)) :=
  ⟨⟨0, 0, flit 5 0 0 [], 0, flitHdr 5 0 0, fit 256 0 [], linked, ⟨by simp [Instr.wf, flit_wf], flit_heard_and (by decide +kernel)
      (by decide +kernel)⟩⟩,
    ⟨0, 0, flit 3 0 0 [], 0, flitHdr 3 0 0, fit 256 0 [], linked, ⟨by simp [Instr.wf, flit_wf], flit_heard_and (by decide +kernel)
      (by decide +kernel)⟩⟩,
    ⟨0, 0, flit 4 0 0 [0x40, 0, 0, 0, 0, 1, 0, 0], 0, flitHdr 4 0 0, fit 256 0 [0x40, 0, 0, 0, 0, 1, 0, 0], 0, 0x10000, linked,
      ⟨by simp [Instr.wf, flit_wf], flit_heard_and (by decide +kernel) (by decide +kernel)⟩⟩,
    ⟨0, 0, flit 8 0 0 [], 0, flitHdr 8 0 0, fit 256 0 [], linked, ⟨by simp [Instr.wf, flit_wf], flit_heard (by decide +kernel)⟩⟩⟩

theorem test_meets_tunnel_and_spare_messages_complete :
    (∃ t, ∃ ip, ∃ f, ∃ n, ∃ h, ∃ pl, ∃ s : State, (Instr.tunnelStart t ip f).wf = true ∧ s.hearsFlit ip.val f n (ofType 2 3) =
      true ∧ s.flitHead ip.val f = some (h, pl) ∧ field pl 0 1 = 1 ∧ (s.portAt ip.val).link.repeats pl = false ∧ (s.portAt
      ip.val).link.fresh = true ∧ (s.pathAt n).mode.guardFam = true ∧ (s.pathAt n).safe = false ∧ (s.pathAt n).phase ≠ .drain ∧
      s.calm = true) ∧
    (∃ t, ∃ ip, ∃ f, ∃ n, ∃ h, ∃ pl, ∃ x, ∃ s : State, (Instr.startAck t ip f).wf = true ∧ s.hearsFlit ip.val f n (ofType 2 3) =
      true ∧ s.flitHead ip.val f = some (h, pl) ∧ field pl 0 1 = 2 ∧ (s.portAt ip.val).link.repeats pl = false ∧ (s.portAt
      ip.val).link.fresh = true ∧ (s.portAt ip.val).link.tunMsg = some (1, x)) ∧
    (∃ t, ∃ ip, ∃ f, ∃ n, ∃ h, ∃ pl, ∃ s : State, (Instr.resume t ip f).wf = true ∧ s.hearsFlit ip.val f n (ofType 2 3) = true ∧
      s.flitHead ip.val f = some (h, pl) ∧ field pl 0 1 = 3 ∧ (s.portAt ip.val).link.repeats pl = false ∧ freshFlag pl = false ∧
      (s.portAt ip.val).link.tunnel = 2 ∧ (s.portAt ip.val).link.resAcked = false) ∧
    (∃ t, ∃ ip, ∃ f, ∃ n, ∃ h, ∃ pl, ∃ x, ∃ s : State, (Instr.resumeAck t ip f).wf = true ∧ s.hearsFlit ip.val f n (ofType 2 3) =
      true ∧ s.flitHead ip.val f = some (h, pl) ∧ field pl 0 1 = 4 ∧ (s.portAt ip.val).link.repeats pl = false ∧ (s.portAt
      ip.val).link.tunMsg = some (3, x)) ∧
    (∃ t, ∃ ip, ∃ f, ∃ n, ∃ h, ∃ pl, ∃ s : State, (Instr.drop t ip f).wf = true ∧ s.hearsFlit ip.val f n (ofType 2 4) = true ∧
      s.flitHead ip.val f = some (h, pl) ∧ field pl 0 1 = 1 ∧ (s.portAt ip.val).spareRx.get none (32 * field pl 0 1 + field pl 1 1)
      ≠ some (pl.take 16) ∧ s.waitingSpare ip.val 1 (spareOf pl).out = none) ∧
    (∃ t, ∃ ip, ∃ f, ∃ n, ∃ h, ∃ pl, ∃ w, ∃ s : State, (Instr.dropAck t ip f).wf = true ∧ s.hearsFlit ip.val f n (ofType 2 4) =
      true ∧ s.flitHead ip.val f = some (h, pl) ∧ field pl 0 1 = 2 ∧ (s.portAt ip.val).spareRx.get none (32 * field pl 0 1 + field
      pl 1 1) ≠ some (pl.take 16) ∧ s.waitingSpare ip.val 1 (spareOf pl).out = some w) ∧
    (∃ t, ∃ ip, ∃ f, ∃ n, ∃ h, ∃ pl, ∃ s : State, (Instr.swap t ip f).wf = true ∧ s.hearsFlit ip.val f n (ofType 2 4) = true ∧
      s.flitHead ip.val f = some (h, pl) ∧ field pl 0 1 = 3 ∧ (s.portAt ip.val).spareRx.get none (32 * field pl 0 1 + field pl 1 1)
      ≠ some (pl.take 16) ∧ (s.portAt ip.val).spare = [] ∧ s.swapFits ip.val (spareOf pl).out (spareOf pl).inn = true) ∧
    (∃ t, ∃ ip, ∃ f, ∃ n, ∃ h, ∃ pl, ∃ w, ∃ s : State, (Instr.swapAck t ip f).wf = true ∧ s.hearsFlit ip.val f n (ofType 2 4) =
      true ∧ s.flitHead ip.val f = some (h, pl) ∧ field pl 0 1 = 4 ∧ (s.portAt ip.val).spareRx.get none (32 * field pl 0 1 + field
      pl 1 1) ≠ some (pl.take 16) ∧ s.waitingSpare ip.val 3 (spareOf pl).out = some w) ∧
    (∃ t, ∃ ip, ∃ f, ∃ n, ∃ h, ∃ pl, ∃ w, ∃ s : State, (Instr.swapRefuse t ip f).wf = true ∧ s.hearsFlit ip.val f n (ofType 2 4) =
      true ∧ s.flitHead ip.val f = some (h, pl) ∧ field pl 0 1 = 5 ∧ (s.portAt ip.val).spareRx.get none (32 * field pl 0 1 + field
      pl 1 1) ≠ some (pl.take 16) ∧ s.waitingSpare ip.val 3 (spareOf pl).out = some w) :=
  ⟨⟨0, 0, flit 2 0x30 0 [1, 1], 0, flitHdr 2 0x30 0, fit 256 0 [1, 1], link id, ⟨by simp [Instr.wf, flit_wf], flit_heard_and
      (by decide +kernel) (by decide +kernel)⟩⟩,
    ⟨0, 0, flit 2 0x30 0 [2, 1], 0, flitHdr 2 0x30 0, fit 256 0 [2, 1], (1, 0, 0), tunWaits 1 1, ⟨by simp [Instr.wf, flit_wf],
      flit_heard_and (by decide +kernel) (by decide +kernel)⟩⟩,
    ⟨0, 0, flit 2 0x30 0 [3], 0, flitHdr 2 0x30 0, fit 256 0 [3], link (fun l => { l with tunnel := 2, fresh := false }), ⟨by simp
      [Instr.wf, flit_wf], flit_heard_and (by decide +kernel) (by decide +kernel)⟩⟩,
    ⟨0, 0, flit 2 0x30 0 [4], 0, flitHdr 2 0x30 0, fit 256 0 [4], (0, 0, 0), tunWaits 3 0, ⟨by simp [Instr.wf, flit_wf],
      flit_heard_and (by decide +kernel) (by decide +kernel)⟩⟩,
    ⟨0, 0, flit 2 0x40 0 [1, 0, 4, 1, 0, 0, 0, 0, 0xFF, 0xFF, 0xFF, 0xFF], 0, flitHdr 2 0x40 0, fit 256 0 [1, 0, 4, 1, 0, 0, 0, 0,
      0xFF, 0xFF, 0xFF, 0xFF], linked, ⟨by simp [Instr.wf, flit_wf], flit_heard_and (by decide +kernel) (by decide +kernel)⟩⟩,
    ⟨0, 0, flit 2 0x40 0 [2, 0, 4, 1, 0, 0, 0, 0, 0xFF, 0xFF, 0xFF, 0xFF], 0, flitHdr 2 0x40 0, fit 256 0 [2, 0, 4, 1, 0, 0, 0, 0,
      0xFF, 0xFF, 0xFF, 0xFF], spareMsg 1, spareWaits 1, ⟨by simp [Instr.wf, flit_wf], flit_heard_and (by decide +kernel)
      (by decide +kernel)⟩⟩,
    ⟨0, 0, flit 2 0x40 0 [3, 0, 4, 1, 0, 0, 0, 0, 0xFF, 0xFF, 0xFF, 0xFF], 0, flitHdr 2 0x40 0, fit 256 0 [3, 0, 4, 1, 0, 0, 0, 0,
      0xFF, 0xFF, 0xFF, 0xFF], linked, ⟨by simp [Instr.wf, flit_wf], flit_heard_and (by decide +kernel) (by decide +kernel)⟩⟩,
    ⟨0, 0, flit 2 0x40 0 [4, 0, 4, 1, 0, 0, 0, 0, 0xFF, 0xFF, 0xFF, 0xFF], 0, flitHdr 2 0x40 0, fit 256 0 [4, 0, 4, 1, 0, 0, 0, 0,
      0xFF, 0xFF, 0xFF, 0xFF], spareMsg 3, spareWaits 3, ⟨by simp [Instr.wf, flit_wf], flit_heard_and (by decide +kernel)
      (by decide +kernel)⟩⟩,
    ⟨0, 0, flit 2 0x40 0 [5, 0, 4, 1, 0, 0, 0, 0, 0xFF, 0xFF, 0xFF, 0xFF], 0, flitHdr 2 0x40 0, fit 256 0 [5, 0, 4, 1, 0, 0, 0, 0,
      0xFF, 0xFF, 0xFF, 0xFF], spareMsg 3, spareWaits 3, ⟨by simp [Instr.wf, flit_wf], flit_heard_and (by decide +kernel)
      (by decide +kernel)⟩⟩⟩

theorem test_meets_flit_boundaries_and_replay_complete :
    (∃ t, ∃ ip, ∃ pos, ∃ bad, ∃ cor, ∃ n, ∃ s : State, (Instr.flitTxBoundary t ip pos bad cor).wf = true ∧ s.still = false ∧
      s.linkPath ip.val = some n ∧ hasPos (s.portAt ip.val).active pos.val = true ∧ s.pwr.fatal = false ∧ s.dueMsg ip.val pos.val =
      none ∧ (s.portAt ip.val).link.naks = [] ∧ (s.portAt ip.val).link.echoAns = none ∧ (∀ x ∈ (s.portAt ip.val).link.unres, x.due =
      false) ∧ (s.portAt ip.val).link.wait = [] ∧ s.uploads n = [] ∧ (s.portAt ip.val).link.ackDue = false ∧ (s.portAt
      ip.val).link.echoDue = false) ∧
    (∃ t, ∃ ip, ∃ pos, ∃ bad, ∃ cor, ∃ n, ∃ f, ∃ s : State, (Instr.flitTxBoundary t ip pos bad cor).wf = true ∧ s.still = false ∧
      s.linkPath ip.val = some n ∧ hasPos (s.portAt ip.val).active pos.val = true ∧ s.pwr.fatal = false ∧ s.dueMsg ip.val pos.val =
      none ∧ (s.portAt ip.val).link.naks = [] ∧ (s.portAt ip.val).link.echoAns = none ∧ (∀ x ∈ (s.portAt ip.val).link.unres, x.due =
      false) ∧ (s.portAt ip.val).link.wait = [f] ∧ f.poison = false ∧ s.mayFrame ip.val n = true) ∧
    (∃ t, ∃ ip, ∃ pos, ∃ sym, ∃ line, ∃ f, ∃ crc, ∃ n, ∃ s : State, (Instr.flitLost t ip pos sym line).wf = true ∧ s.still = false
      ∧ f = lineFlit pos sym line ∧ s.linkPath ip.val = some n ∧ s.hears ip.val pos.val = true ∧ s.readFlit ip.val f = .lost crc) ∧
    (∃ t, ∃ ip, ∃ q, ∃ n, ∃ f, ∃ s : State, (Instr.replayTimeout t ip q).wf = true ∧ s.still = false ∧ s.linkPath ip.val = some n
      ∧ (s.portAt ip.val).link.unres.find? (fun f => f.seq == q) = some f ∧ f.sel = false ∧ f.dueAt ≤ max s.now t) ∧
    (∃ t, ∃ ip, ∃ n, ∃ q, ∃ g, ∃ s : State, (Instr.gapTimer t ip).wf = true ∧ s.still = false ∧ s.linkPath ip.val = some n ∧ q ∈
      (s.portAt ip.val).link.holes ∧ g ∈ (s.portAt ip.val).link.got ∧ seqBefore q g.1 = true ∧ g.2 ≤ max s.now t ∧ (∀ x ∈ (s.portAt
      ip.val).link.nakAt, x.1 ≠ q)) ∧
    (∃ t, ∃ ip, ∃ f, ∃ n, ∃ hw, ∃ pl, ∃ c, ∃ s : State, (Instr.flitMalformed t ip f).wf = true ∧ s.still = false ∧ s.linkPath
      ip.val = some n ∧ s.hears ip.val f.pos.val = true ∧ s.readFlit ip.val f = .got hw pl c ∧ s.flitOk n false (hdrOf hw) pl =
      false ∧ (¬((hdrOf hw).typ = 2 ∧ (hdrOf hw).cls = 0))) :=
  ⟨⟨0, 0, 0, (false, false), none, 0, linked, by decide +kernel⟩,
    ⟨0, 0, 0, (false, false), none, 0, ({ typ := 7 } : TxFlit), link (fun l => { l with wait := [{ typ := 7 }] }),
      by decide +kernel⟩,
    ⟨0, 0, 0, flitBad.sym, badLine, flitBad, true, 0, linked, ⟨badLine_wf, by decide +kernel, badLine_flit, by decide +kernel,
      by decide +kernel, flitBad_read (by decide +kernel)⟩⟩,
    ⟨ms, 0, 1, 0, markOne, link (fun l => { l with unres := [markOne] }), by decide +kernel⟩,
    ⟨ms, 0, 0, 1, (2, 0), link (fun l => { l with got := [(2, 0)] }), by decide +kernel⟩,
    ⟨0, 0, flit 9 0 0 [], 0, flitHw 9 0 0, fit 256 0 [], 0, linked, ⟨by simp [Instr.wf, flit_wf], by decide +kernel,
      by decide +kernel, by decide +kernel, flit_read (by decide +kernel), by decide +kernel⟩⟩⟩

theorem test_meets_link_timers_complete :
    (∃ t, ∃ ip, ∃ n, ∃ s : State, (Instr.ackTimer t ip).wf = true ∧ s.still = false ∧ s.linkPath ip.val = some n ∧ (s.portAt
      ip.val).link.got ≠ [] ∧ (s.portAt ip.val).link.ackNext ≤ max s.now t) ∧
    (∃ t, ∃ ip, ∃ n, ∃ s : State, (Instr.echoTimer t ip).wf = true ∧ s.still = false ∧ s.linkPath ip.val = some n ∧ (s.portAt
      ip.val).link.echoNext ≤ max s.now t) ∧
    (∃ t, ∃ ip, ∃ n, ∃ s : State, (Instr.linkSilence t ip).wf = true ∧ s.still = false ∧ s.linkPath ip.val = some n ∧ (s.portAt
      ip.val).link.silent = false ∧ (s.portAt ip.val).link.heardAt + 10 * us ≤ max s.now t) ∧
    (∃ t, ∃ ip, ∃ n, ∃ m, ∃ s : State, (Instr.spareTimeout t ip).wf = true ∧ s.still = false ∧ s.linkPath ip.val = some n ∧
      (s.portAt ip.val).spare = [m] ∧ m.late = false ∧ m.since + 10 * us ≤ max s.now t) ∧
    (∃ t, ∃ ip, ∃ n, ∃ m, ∃ s : State, (Instr.spareTimeout t ip).wf = true ∧ s.still = false ∧ s.linkPath ip.val = some n ∧
      (s.portAt ip.val).spare = [] ∧ (s.portAt ip.val).spareAns = [m] ∧ m.late = false ∧ m.since + 10 * us ≤ m.repeated) ∧
    (∃ t, ∃ ip, ∃ s : State, (Instr.ctrlRepeat t ip).wf = true ∧ s.still = false) :=
  ⟨⟨0, 0, 0, link (fun l => { l with got := [(2, 0)] }), by decide +kernel⟩,
    ⟨0, 0, 0, linked, by decide +kernel⟩,
    ⟨10 * us, 0, 0, linked, by decide +kernel⟩,
    ⟨10 * us, 0, 0, spareMsg 1, spareWaits 1, by decide +kernel⟩,
    ⟨10 * us, 0, 0, { spareMsg 2 with repeated := 10 * us }, linked.modPort 0 (fun p => { p with spareAns := [{ spareMsg 2 with
      repeated := 10 * us }] }), by decide +kernel⟩,
    ⟨0, 0, up, by decide +kernel⟩⟩

theorem test_meets_drops_and_phases_complete :
    (∃ t, ∃ ip, ∃ pos, ∃ lost, ∃ ber, ∃ short, ∃ cause, ∃ s : State, (Instr.laneDrop t ip pos lost ber short).wf = true ∧ s.still
      = false ∧ (s.portAt ip.val).up = true ∧ hasPos (s.portAt ip.val).active pos.val = true ∧ dropCode (lost && !(s.laneAt
      (s.ipLane ip.val pos.val)).eligible) ber short = some cause ∧ s.room 1 = true) ∧
    (∃ point, ∃ rec, ∃ copy, ∃ n, ∃ want, ∃ s : State, (Instr.routeTagMismatch point ⟨rec, copy⟩).wf = true ∧ s.still = false ∧
      s.tagExpected point = some (n, want) ∧ (tagMatches want rec = false ∨ tagMatches want copy = false) ∧ s.armed (srcPath n 0) =
      true) ∧
    (∃ t, ∃ p, ∃ s : State, (Instr.drainEnd t p).wf = true ∧ s.still = false ∧ (s.pathAt p.val).phase = .drain ∧ (s.pathAt
      p.val).safe = false ∧ (s.at t).drained p.val = true) ∧
    (∃ t, ∃ p, ∃ tr, ∃ s : State, (Instr.phase2Start t p).wf = true ∧ s.still = false ∧ s.pathEn p.val = true ∧ s.pathLead p.val =
      p.val ∧ (s.pathAt p.val).phase = .dark ∧ (s.pathAt p.val).trans = some tr ∧ (s.pathAt p.val).safe = false ∧ s.beat.st =
      .locked ∧ max s.now t = s.beat.edge ∧ tr.fireAt < s.beat.edge ∧ (∀ d, tr.darkAt = some d → d + us * s.darkMin p.val ≤
      s.beat.edge) ∧ s.pwr.fatal = false) :=
  ⟨⟨0, 0, 0, false, true, false, 2, linked, by decide +kernel⟩,
    ⟨.dLane 0, 2, 2, 0, [some 0, some 0, some 0, some 0], wired, by decide +kernel⟩,
    ⟨ms, 0, wired.modPath 0 (fun p => { p with phase := .drain, trans := some ⟨false, true, .pass, none, 0⟩ }), by decide +kernel⟩,
    ⟨8, 0, ⟨false, true, .moored, none, 0⟩, darkened, by and_intros <;> first | decide +kernel | exact nofun⟩⟩

theorem test_meets_packing_and_playout_complete :
    (∃ t, ∃ p, ∃ a, ∃ m, ∃ s : State, (Instr.packTimeout t p).wf = true ∧ s.still = false ∧ (s.pathAt p.val).packAt = some a ∧
      s.packs p.val = true ∧ a + 8 * ns ≤ max s.now t ∧ s.noFlitDue p.val = true ∧ m = min (shortest (s.pathAt p.val).packBits) (min
      (intervalBits (s.dpWidth (s.pathD p.val)) - (s.pathAt p.val).packOff) (2016 / s.dpWidth (s.pathD p.val))) ∧ m ≠ 0) ∧
    (∃ t, ∃ p, ∃ rx, ∃ all, ∃ s : State, (Instr.dToIReceive t p rx).wf = true ∧ s.still = false ∧ s.pathEn p.val = true ∧
      (s.pathAt p.val).dataMode = .guard ∧ s.packs p.val = true ∧ rx.units = [] ∧ all = appendLanes (s.pathAt p.val).packBits
      (lineBits p.val rx.bits s).1 ∧ shortest all < intervalBits (s.dpWidth (s.pathD p.val)) - (s.pathAt p.val).packOff ∧ s.calm =
      true) ∧
    (∃ t, ∃ p, ∃ a, ∃ c, ∃ s : State, (Instr.playoutSlot t p ⟨false, false, none⟩).wf = true ∧ s.still = false ∧ s.pathEn p.val =
      true ∧ s.pathLead p.val = p.val ∧ (s.pathAt p.val).mode.guardFam = true ∧ (s.pathAt p.val).safe = false ∧ (s.portAt (s.pathI
      p.val)).link.tunnel = 1 ∧ s.slotTime p.val (s.pathAt p.val).playNext = some a ∧ a ≤ max s.now t ∧ (s.portAt (s.pathI
      p.val)).link.cells.find? (fun c => c.typ = 1 && seqUpTo c.seq (s.portAt (s.pathI p.val)).link.ack && c.interval == (s.pathAt
      p.val).playNext && decide (c.readyAt + 16 * ns ≤ a)) = some c) ∧
    (∃ t, ∃ p, ∃ r, ∃ a, ∃ s : State, (Instr.playoutSlot t p r).wf = true ∧ s.still = false ∧ s.pathEn p.val = true ∧ s.pathLead
      p.val = p.val ∧ (s.pathAt p.val).mode.guardFam = true ∧ (s.pathAt p.val).safe = false ∧ (s.portAt (s.pathI p.val)).link.tunnel
      = 1 ∧ s.slotTime p.val (s.pathAt p.val).playNext = some a ∧ a ≤ max s.now t ∧ (s.portAt (s.pathI p.val)).link.cells = [] ∧
      s.armed (srcPath p.val 1) = true) ∧
    (∃ t, ∃ p, ∃ a, ∃ s : State, (Instr.slip t p).wf = true ∧ s.still = false ∧ s.pathEn p.val = true ∧ (s.pathAt p.val).safe =
      false ∧ (s.portAt (s.pathI p.val)).link.tunnel = 1 ∧ s.slotTime p.val (s.portAt (s.pathI p.val)).link.rxCount = some a ∧ a ≤
      max s.now t + 16 * ns ∧ s.armed (srcPath p.val 1) = true) :=
  ⟨⟨8 * ns, 0, 0, 4, tunnelled id (fun p => { p with packArr := [(4, 0)], packBits := List.replicate 8 (List.replicate 4 true)
      }), by decide +kernel⟩,
    ⟨0, 0, ⟨List.replicate 8 (List.replicate 4 true), [], [], 0, 0, false⟩, List.replicate 8 (List.replicate 4 true), tunnelled id
      id, by decide +kernel⟩,
    ⟨ms, 0, (tunnelled id id).ballast 0, cellOne, tunnelled (fun l => { l with ack := 1, rxCount := 1, cells := [cellOne] }) id,
      by decide +kernel⟩,
    ⟨ms, 0, ⟨false, false, none⟩, (tunnelled id id).ballast 0, tunnelled id id, by decide +kernel⟩,
    ⟨ms, 0, (tunnelled id id).ballast 0, tunnelled id id, by decide +kernel⟩⟩

theorem test_meets_rows_and_hbm_complete_1 :
    (∃ t, ∃ k, ∃ r, ∃ s : State, (Instr.sealTimeout t k).wf = true ∧ s.still = false ∧ k.val ≠ 1022 ∧ s.stRole k.val ≠ 1 ∧
      (s.strmAt k.val).cur = some r ∧ (s.strmAt k.val).evRec = none ∧ r.begun + us * s.stSeal k.val ≤ max s.now t ∧ (s.strmAt
      k.val).limit = 0 ∧ (s.strmAt k.val).post = none) ∧
    (∃ t, ∃ k, ∃ r, ∃ s : State, (Instr.rowTimeout t k).wf = true ∧ s.still = false ∧ s.calm = true ∧ ((s.strmAt
      k.val).staged.drop ((s.strmAt k.val).staged.length / 3 * 3)).head? = some r ∧ r.sealedAt + us ≤ max s.now t) ∧
    (∃ t, ∃ i, ∃ r, ∃ n, ∃ k, ∃ s : State, (Instr.serviceSlot t ⟨i, r⟩).wf = true ∧ s.still = false ∧ s.pwr.fatalDone = false ∧
      s.slotFree t i.val = true ∧ s.slotUse i.val = .path n ∧ ((s.roleOf n 0).filter (fun k => s.stDir k == 1)).find? s.rowReady =
      some k ∧ (∀ r ∈ (s.strmAt k).staged, r.com = true)) ∧
    (∃ t, ∃ i, ∃ r, ∃ s : State, (Instr.serviceSlot t ⟨i, r⟩).wf = true ∧ s.still = false ∧ s.pwr.fatalDone = false ∧ s.slotFree t
      i.val = true) ∧
    (∃ t, ∃ i, ∃ r, ∃ s : State, (Instr.serviceSlot t ⟨i, r⟩).wf = true ∧ s.still = false ∧ s.pwr.fatalDone = false ∧ s.slotFree t
      i.val = true ∧ s.slotUse i.val = .rebuild ∧ s.spl.assist = 0 ∧ (∀ h : Fin 4, (s.hbmAt h.val).rebuild = none) ∧ s.env.rkState ≠
      1 ∧ (s.at t).scrubDue = true) ∧
    (∃ h, ∃ n, ∃ s : State, (Instr.hbmErrorWindow h n).wf = true ∧ s.still = false) :=
  ⟨⟨ms, 0, record 0, stream (fun x => { x with isOpen := true, cur := some (record 0) }), by decide +kernel⟩,
    ⟨us, 0, record 1, stream (fun x => { x with staged := [record 1] }), by decide +kernel⟩,
    ⟨0, 30, ⟨[], [], true⟩, 0, 0, slotted, by decide +kernel⟩,
    ⟨0, 0, ⟨[], [], true⟩, up, by decide +kernel⟩,
    ⟨0, 18, ⟨[], [], true⟩, up, by decide +kernel⟩,
    ⟨0, 0, up, by decide +kernel⟩⟩

theorem test_meets_rows_and_hbm_complete_2 :
    (∃ h, ∃ s : State, (Instr.selfRefreshFail h).wf = true ∧ s.pwr.por = false) ∧
    (∃ h, ∃ c, ∃ s : State, (Instr.hbmTempHigh h c).wf = true ∧ s.still = false) ∧
    (∃ h, ∃ c, ∃ s : State, (Instr.hbmTempHighEnd h c).wf = true ∧ s.still = false) :=
  ⟨⟨0, up, by decide +kernel⟩,
    ⟨0, 60, up, by decide +kernel⟩,
    ⟨0, 60, up, by decide +kernel⟩⟩

theorem test_meets_rows_and_hbm_complete_3 :
    ∃ h, ∃ s : State, (Instr.hbmControllerEcc h).wf = true ∧ s.still = false ∧ s.armed (srcHbm h.val 11) = true :=
  ⟨0, up, by decide +kernel⟩

theorem test_meets_journal_and_drain_complete :
    (∃ t, ∃ s : State, (Instr.journalCommit t).wf = true ∧ s.still = false ∧ s.spl.committing = false ∧ s.pwr.fatalDone = false ∧
      s.spl.commitDue ≤ max s.now t) ∧
    (∃ t, ∃ a, ∃ b, ∃ s : State, (Instr.journalCommitComplete t a b).wf = true ∧ s.still = false ∧ s.spl.committing = true) ∧
    (∃ t, ∃ s : State, (Instr.snapshot t).wf = true ∧ s.still = false ∧ s.spl.snapping = false ∧ s.sto.stopped = false ∧
      s.spl.snapFrom + ms * s.bits 0x700000 25 16 ≤ max s.now t) ∧
    (∃ t, ∃ s : State, (Instr.journalStore t).wf = true ∧ s.still = false ∧ s.spl.snapAt + 10 * ms * s.bits 0x700000 25 16 ≤ max
      s.now t ∧ s.armed (srcStore 95) = true) ∧
    (∃ t, ∃ k, ∃ r, ∃ s : State, (Instr.storeFlushTimeout t k).wf = true ∧ s.still = false ∧ (s.strmAt k.val).toDrain.head? = some
      r ∧ r.accAt + us * s.bits 0x700004 15 0 ≤ max s.now t) ∧
    (∃ d, ∃ k, ∃ r, ∃ s : State, (Instr.driveCommandComplete d (.rowWrite k)).wf = true ∧ s.still = false ∧ s.sto.stopped = false
      ∧ (s.strmAt k.val).drainOn = BitVec.ofNat 16 (2 ^ d.val) ∧ ((s.strmAt k.val).toDrain.take (s.strmAt k.val).draining).getLast?
      = some r) ∧
    (∃ d, ∃ k, ∃ s : State, (Instr.driveCommandComplete d (.rowWrite k)).wf = true ∧ s.still = false ∧ s.sto.stopped = false ∧
      (s.strmAt k.val).drainOn.getLsbD d.val = true ∧ (s.strmAt k.val).drainOn ≠ BitVec.ofNat 16 (2 ^ d.val)) ∧
    (∃ d, ∃ row, ∃ s : State, (Instr.driveCommandComplete d (.rebuildRow row)).wf = true ∧ s.still = false ∧ s.sto.stopped = false
      ∧ (s.driveAt d.val).st = 3 ∧ (s.driveAt d.val).boundary = row) ∧
    (∃ d, ∃ s : State, (Instr.driveCommandComplete d .snapshot).wf = true ∧ s.still = false ∧ s.sto.stopped = false ∧
      s.spl.snapping = true ∧ s.spl.snapOn = BitVec.ofNat 16 (2 ^ d.val)) ∧
    (∃ k, ∃ s : State, (Instr.durableLag k).wf = true ∧ s.still = false ∧ s.lags k.val = true ∧ s.armed (srcStore 94) = true) :=
  ⟨⟨0, up, by decide +kernel⟩,
    ⟨0, true, true, up.modSpl (fun x => { x with committing := true }), by decide +kernel⟩,
    ⟨1024 * ms, up, by decide +kernel⟩,
    ⟨10 * ms * 0x10000, up, by decide +kernel⟩,
    ⟨us * 0x10000, 0, record 1, draining, by decide +kernel⟩,
    ⟨0, 0, record 1, draining.modStrm 0 (fun x => { x with draining := 1, drainOn := 1 }), by decide +kernel⟩,
    ⟨0, 0, draining.modStrm 0 (fun x => { x with draining := 1, drainOn := 3 }), by decide +kernel⟩,
    ⟨0, 0, up.modDrive 0 (fun x => { x with st := 3 }), by decide +kernel⟩,
    ⟨0, up.modSpl (fun x => { x with snapping := true, snapOn := 1 }), by decide +kernel⟩,
    ⟨0, { draining.setReg 0x201F4 0x10000000 with now := 10000 * ms * 1000 }, by decide +kernel⟩⟩

theorem test_meets_drives_complete_1 :
    (∃ t, ∃ d, ∃ s : State, (Instr.driveCmdTimeout ⟨t, d⟩).wf = true ∧ s.still = false ∧ (s.driveAt d.val).st = 1 ∧ (s.at
      t).cmdLate d.val = true) ∧
    (∃ d, ∃ s : State, (Instr.driveRemoved d).wf = true ∧ s.still = false ∧ (s.driveAt d.val).st = 1) ∧
    (∃ i, ∃ s : State, (Instr.driveInserted i).wf = true ∧ s.still = false ∧ (s.driveAt i.drive.val).st = 0 ∧ s.sto.group = 0 ∧
      i.usable = true) ∧
    (∃ p, ∃ s : State, (Instr.storePortEvent p .linkDown).wf = true ∧ s.still = false) ∧
    (∃ p, ∃ s : State, (Instr.storePortEvent p .linkDegraded).wf = true ∧ s.still = false ∧ s.armed (srcStore (69 + 3 * p.val)) =
      true) :=
  ⟨⟨ms * 0x10000, 0, (up.modDrive 0 (fun x => { x with st := 1 })).modStrm 0 (fun x => { x with drainOn := 1 }),
      by decide +kernel⟩,
    ⟨0, up.modDrive 0 (fun x => { x with st := 1 }), by decide +kernel⟩,
    ⟨⟨0, 0, true, 100⟩, up, by decide +kernel⟩,
    ⟨0, up, by decide +kernel⟩,
    ⟨0, up, by decide +kernel⟩⟩

theorem test_meets_drives_complete_2 :
    ∃ p, ∃ ds, ∃ s : State, (Instr.storeLinkUp p ds).wf = true ∧ s.still = false :=
  ⟨0, [], up, by decide +kernel⟩

theorem test_meets_spool_commands_complete :
    (∃ o, ∃ k, ∃ q, ∃ n, ∃ s : State, (Instr.preload o k q n).wf = true ∧ s.unclocked = false ∧ s.fatalRefuses o = false ∧ s.room
      1 = true ∧ s.spl.cmdBusy = false ∧ s.stEn k.val = true ∧ 2 ≤ s.stRole k.val ∧ s.stRole k.val ≤ 4 ∧ n ≠ 0) ∧
    (∃ o, ∃ k, ∃ q, ∃ s : State, (Instr.splRelease o k q).wf = true ∧ s.unclocked = false ∧ s.fatalRefuses o = false ∧ s.room 1 =
      true ∧ s.spl.cmdBusy = false ∧ s.stEn k.val = true ∧ 2 ≤ s.stRole k.val ∧ s.stRole k.val ≤ 4) ∧
    (∃ o, ∃ k, ∃ q, ∃ s : State, (Instr.storeRelease o k q).wf = true ∧ s.unclocked = false ∧ s.fatalRefuses o = false ∧ s.room 1
      = true ∧ s.spl.cmdBusy = false ∧ s.stEn k.val = true ∧ s.stDrain k.val = true ∧ (s.strmAt k.val).durable ≤ q) :=
  ⟨⟨.mgmt, 0, 1, 1, loading 2, by decide +kernel⟩,
    ⟨.mgmt, 0, 1, loading 2, by decide +kernel⟩,
    ⟨.mgmt, 0, 1, stream id, by decide +kernel⟩⟩

theorem test_meets_verdicts_complete :
    (∃ t, ∃ p, ∃ c, ∃ s : State, (Instr.verdictFormed t p c).wf = true ∧ s.still = false ∧ (s.ctxAt p.val c.val).forming = 1 ∧
      (s.ctxAt p.val c.val).waiting = none ∧ (s.ctxAt p.val c.val).closedAt.1 + 200 * ns ≤ max s.now t) ∧
    (∃ p, ∃ s : State, (Instr.verdictEccError p).wf = true ∧ s.still = false) :=
  ⟨⟨200 * ns, 0, 0, wired.modCtx 0 0 (fun c => { c with forming := 1 }), by decide +kernel⟩,
    ⟨0, up, by decide +kernel⟩⟩

theorem test_meets_train_completes :
    (∃ t, ∃ rx, ∃ s : State, (Instr.trainSlot t rx).wf = true ∧ s.trainOn = true ∧ validSlot rx = none) ∧
    (∃ t, ∃ rx, ∃ inv, ∃ pl, ∃ s : State, (Instr.trainSlot t rx).wf = true ∧ s.trainOn = true ∧ validSlot rx = some (inv, pl) ∧
      rx.arrival.val ≠ s.trainId) ∧
    (∃ t, ∃ s : State, (Instr.trainRoundStart t).wf = true ∧ s.trainOn = true ∧ s.trainId = 0 ∧ (s.trn.masterRef = none ∨
      s.trn.roundAt + 255975 * ns ≤ max s.now t)) ∧
    (∃ t, ∃ r, ∃ s : State, (Instr.trainSlotSend t r).wf = true ∧ (s.at t).mayPublish = true) ∧
    (∃ t, ∃ r, ∃ s : State, (Instr.masterSilent t).wf = true ∧ s.trainOn = true ∧ s.trainId ≠ 0 ∧ s.trn.heardMaster = true ∧
      s.trn.coasting = false ∧ s.trn.masterRef = some r ∧ r + 1026 * us ≤ max s.now t) ∧
    (∃ id, ∃ s : State, (Instr.peerAbsent id).wf = true ∧ s.trainOn = true ∧ id.val ≠ s.trainId ∧ 4 ≤ (s.peerAt id.val).since ∧
      (s.peerAt id.val).absent = false) :=
  ⟨⟨0, ⟨0, 0⟩, train 1, by decide +kernel⟩,
    ⟨0, ⟨1, slotCells 0x4000000000000000000000000000000000000fb7e⟩, false, 0x4000000000000000000000000000000000000fb7e, train 2,
      by decide +kernel⟩,
    ⟨0, train 0, by decide +kernel⟩,
    ⟨0, 0, (train 0).modTrn (fun t => { t with masterRef := some 0 }), by decide +kernel⟩,
    ⟨1026 * us, 0, (train 1).modTrn (fun t => { t with heardMaster := true, masterRef := some 0 }), by decide +kernel⟩,
    ⟨2, (train 1).modPeer 2 (fun p => { p with since := 4 }), by decide +kernel⟩⟩

theorem test_meets_faults_complete_1 :
    (∃ t, ∃ src : Fin 2176, ∃ s : State, ∃ g, (Instr.graceExpiry t src).wf = true ∧ s.still = false ∧ src.val ≠ srcGlobal 57 ∧
      src.val ≠ srcGlobal 70 ∧ src.val ≠ srcGlobal 72 ∧ src.val ≠ srcGlobal 78 ∧ (s.srcAt src.val).grace = some g ∧ g ≤ max s.now t) ∧
    (∃ t, ∃ p, ∃ s : State, (Instr.safeStateExit t p).wf = true ∧ s.still = false ∧ (s.pathAt p.val).safe = true ∧ (s.pathAt
      p.val).holds = [] ∧ s.pwr.fatal = false ∧ s.room 1 = true) ∧
    (∃ t, ∃ p, ∃ s : State, (Instr.safeStateExit t p).wf = true ∧ s.still = false ∧ s.calm = true ∧ (s.pathAt p.val).safe = true ∧
      (s.pathAt p.val).holds = [] ∧ s.pwr.fatal = false ∧ (s.pathAt p.val).mode = .pass ∧ s.pathEn p.val = true ∧ (s.pathAt
      p.val).pendMode = none ∧ (s.pathAt p.val).pendRetrain = none ∧ (s.pathAt p.val).trans = none) ∧
    (∃ t, ∃ s : State, (Instr.fatalFlushEnd t).wf = true ∧ s.still = false ∧ s.pwr.fatal = true ∧ s.pwr.fatalDone = false) ∧
    (∃ t, ∃ s : State, (Instr.fatalPortTimeout t).wf = true ∧ s.still = false ∧ s.pwr.fatalDone = true ∧ s.pwr.fatalPorts = false
      ∧ s.pwr.flushAt + ms ≤ max s.now t) ∧
    (∃ o, ∃ v, ∃ s : State, (Instr.faultAck o v).wf = true ∧ s.writable o 0x20800 v.toNat = true ∧ s.room 2 = true ∧ s.pwr.fatal =
      false ∧ v.toNat ≠ srcGlobal 57 ∧ v.toNat ≠ srcGlobal 70 ∧ v.toNat ≠ srcGlobal 72 ∧ v.toNat ≠ srcGlobal 78 ∧ (s.srcAt
      v.toNat).raisedAt ≠ some s.now) ∧
    (∃ o, ∃ v, ∃ s : State, (Instr.faultRecordPop o v).wf = true ∧ s.writable o 0x20840 v.toNat = true ∧ v.toNat % 2 = 1) ∧
    (∃ t, ∃ s : State, (Instr.refclkLoss t).wf = true ∧ s.pwr.por = false ∧ s.pwr.clkLost = false ∧ s.armed (srcGlobal 32) = true) :=
  ⟨⟨0, 0, up.modSrc 0 (fun x => { x with st := 2, cls := 1, grace := some 0 }), 0, by decide +kernel⟩,
    ⟨0, 0, wired.modPath 0 (fun p => { p with safe := true }), by decide +kernel⟩,
    ⟨0, 0, (moded .pass).modPath 0 (fun p => { p with safe := true }), by decide +kernel⟩,
    ⟨0, up.modPwr (fun p => { p with fatal := true }), by decide +kernel⟩,
    ⟨ms, up.modPwr (fun p => { p with fatal := true, fatalDone := true }), by decide +kernel⟩,
    ⟨.mgmt, 0, up, by decide +kernel⟩,
    ⟨.mgmt, 1, up, by decide +kernel⟩,
    ⟨0, up, by decide +kernel⟩⟩

theorem test_meets_faults_complete_2 :
    ∃ t, ∃ s : State, (Instr.coreClock t).wf = true ∧ s.pwr.por = false ∧ s.pwr.clkLost = false ∧ s.armed (srcGlobal 33) = true :=
  ⟨0, up, by decide +kernel⟩

theorem test_meets_own_checks_complete_1 :
    (∃ d, ∃ s : State, (Instr.d2dCorrected d).wf = true ∧ s.still = false) ∧
    (∃ d, ∃ ps, ∃ s : State, (Instr.d2dUncorrected d ps).wf = true ∧ s.still = false ∧ s.armed (srcGlobal (23 + d.val)) = true) ∧
    (∃ d, ∃ s : State, (Instr.d2dLinkLoss d).wf = true ∧ s.still = false) :=
  ⟨⟨0, up, by decide +kernel⟩,
    ⟨0, 1, up, by decide +kernel⟩,
    ⟨0, up, by decide +kernel⟩⟩

theorem test_meets_own_checks_complete_2 :
    (∃ ps, ∃ s : State, (Instr.datapathConfigEcc ps).wf = true ∧ s.still = false ∧ s.armed (srcGlobal 66) = true) ∧
    (∃ r, ∃ s : State, (Instr.datapathParity r).wf = true ∧ s.still = false ∧ s.armed (srcGlobal 67) = true) ∧
    (∃ s : State, (Instr.spoolEcc).wf = true ∧ s.still = false ∧ s.armed (srcGlobal 68) = true) ∧
    (∃ s : State, (Instr.logEcc).wf = true ∧ s.still = false ∧ s.armed (srcGlobal 69) = true) ∧
    (∃ s : State, (Instr.ripcordEcc).wf = true ∧ s.still = false ∧ s.armed (srcGlobal 80) = true) :=
  ⟨⟨1, up, by decide +kernel⟩,
    ⟨⟨0, 0, 0, .toD⟩, up, by decide +kernel⟩,
    ⟨up, by decide +kernel⟩,
    ⟨up, by decide +kernel⟩,
    ⟨up, by decide +kernel⟩⟩

theorem test_meets_own_checks_complete_3 :
    (∃ s : State, (Instr.ripcordMismatch).wf = true ∧ s.still = false ∧ s.armed (srcGlobal 79) = true) ∧
    (∃ s : State, (Instr.classCopyCompare false).wf = true ∧ s.still = false ∧ s.armed (srcGlobal 79) = true) ∧
    ((Instr.classCopyCompare true).wf = true) ∧
    (∃ s : State, (Instr.ripcordSelftest false).wf = true ∧ s.still = false ∧ s.armed (srcGlobal 81) = true) ∧
    ((Instr.ripcordSelftest true).wf = true) ∧
    (∃ rights, ∃ ks, ∃ ecc, ∃ i, ∃ s : State, (Instr.envIntegrity rights ks ecc i).wf = true ∧ s.still = false ∧ (rights || ks ||
      ecc) = true) ∧
    (∃ s : State, (Instr.pinReadback .faultN).wf = true ∧ s.still = false ∧ s.flt.faultN = true ∧ (s.srcAt (srcGlobal 75)).under =
      0 ∧ s.armed (srcGlobal 75) = true) ∧
    (∃ s : State, (Instr.pinReadback .alertN).wf = true ∧ s.still = false ∧ s.flt.alertN = true ∧ (s.srcAt (srcGlobal 75)).under =
      0 ∧ s.armed (srcGlobal 75) = true) ∧
    (∃ s : State, (Instr.beatLine).wf = true ∧ s.still = false ∧ s.armed (srcGlobal 76) = true) ∧
    (∃ s : State, (Instr.trainLine).wf = true ∧ s.still = false ∧ s.armed (srcGlobal 77) = true) ∧
    (∃ s : State, (Instr.lineBackInRange .beat).wf = true ∧ s.still = false) :=
  ⟨⟨up, by decide +kernel⟩,
    ⟨up, by decide +kernel⟩,
    by decide +kernel,
    ⟨up, by decide +kernel⟩,
    by decide +kernel,
    ⟨true, false, false, 3, up, by decide +kernel⟩,
    ⟨{ up with flt := { up.flt with faultN := true } }, by decide +kernel⟩,
    ⟨{ up with flt := { up.flt with alertN := true } }, by decide +kernel⟩,
    ⟨up, by decide +kernel⟩,
    ⟨up, by decide +kernel⟩,
    ⟨up, by decide +kernel⟩⟩

theorem test_meets_own_checks_complete_4 :
    (∃ s : State, (Instr.lineBackInRange .train).wf = true ∧ s.still = false) ∧
    (∃ s : State, (Instr.lineBackInRange .faultN).wf = true ∧ s.still = false) ∧
    (∃ s : State, (Instr.lineBackInRange .alertN).wf = true ∧ s.still = false) :=
  ⟨⟨up, by decide +kernel⟩,
    ⟨up, by decide +kernel⟩,
    ⟨up, by decide +kernel⟩⟩

theorem test_meets_supplies_complete_1 :
    (∃ t, ∃ rs, ∃ s : State, (Instr.tempSample t rs).wf = true ∧ s.still = false) ∧
    (∃ k, ∃ v, ∃ s : State, (Instr.supplyLow k v).wf = true ∧ s.pwr.por = false ∧ s.supplyIsLow k.val v = true) ∧
    (∃ k, ∃ s : State, (Instr.supplyLowEnd k).wf = true ∧ s.pwr.por = false) :=
  ⟨⟨0, List.replicate 16 (some 100), up, by decide +kernel⟩,
    ⟨0, 0, up, by decide +kernel⟩,
    ⟨0, up, by decide +kernel⟩⟩

theorem test_meets_supplies_complete_2 :
    (∃ k, ∃ v, ∃ s : State, (Instr.supplyHigh k v).wf = true ∧ s.pwr.por = false ∧ s.supplyIsHigh k.val v = true) ∧
    (∃ m : Int, ∃ lo : Int, ∃ hi : Int, ∃ v, ∃ s : State, (Instr.avsLoop (some m) lo hi v).wf = true ∧ s.still = false ∧
      s.pwr.avsRun = true ∧ s.pwr.fatal = false ∧ s.bit 0x50010 0 = true) ∧
    (∃ lo : Int, ∃ hi : Int, ∃ v, ∃ s : State, (Instr.avsLoop none lo hi v).wf = true ∧ s.still = false ∧ s.pwr.avsRun = true ∧
      s.pwr.fatal = false ∧ s.bit 0x50010 0 = true) :=
  ⟨⟨0, 100000, up, by decide +kernel⟩,
    ⟨5, 0, 10, 750, (up.setReg 0x50010 1).modPwr (fun p => { p with avsRun := true }), by decide +kernel⟩,
    ⟨0, 10, 750, (up.setReg 0x50010 1).modPwr (fun p => { p with avsRun := true }), by decide +kernel⟩⟩

theorem test_meets_clocks_and_resets_complete :
    (∃ o, ∃ v, ∃ s : State, ∃ d, (Instr.clockSwitchRequest o v).wf = true ∧ s.writable o 0x50000 v.toNat = true ∧ d = v.toNat / 2
      ^ 8 % 256 ∧ d < 206 ∧ protectedDomain d = false ∧ (domInputs d).contains (v.toNat % 4) = true ∧ (s.domAt d).switching = none ∧
      (s.domAt d).inReset = false ∧ (s.domAt d).edges (s.domAt d).input = true ∧ (s.domAt d).edges (v.toNat % 4) = true) ∧
    (∃ t, ∃ d, ∃ s : State, (Instr.muxHang t d).wf = true ∧ s.still = false ∧ (s.domAt d.val).switching ≠ none ∧ (s.domAt
      d.val).inReset = false ∧ (s.domAt d.val).since + 10 * us ≤ max s.now t) ∧
    (∃ t, ∃ d, ∃ s : State, (Instr.domainResetRelease t d).wf = true ∧ s.still = false ∧ (s.domAt d.val).inReset = true ∧ (s.domAt
      d.val).since + 100 * ns ≤ max s.now t) ∧
    (∃ t, ∃ o, ∃ v, ∃ s : State, ∃ k, (Instr.resetDevice t o v).wf = true ∧ k = v.toNat / 2 ^ 19 * 2 ^ 19 + 1 * 2 ^ 16 + v.toNat %
      2 ^ 16 ∧ s.writable o 0x60 k = true ∧ s.room 2 = true ∧ s.resetResult k = 0 ∧ s.pwr.dev = false) ∧
    (∃ t, ∃ o, ∃ v, ∃ s : State, ∃ k, (Instr.resetGondola t o v).wf = true ∧ k = v.toNat / 2 ^ 19 * 2 ^ 19 + 2 * 2 ^ 16 + v.toNat
      % 2 ^ 16 ∧ s.writable o 0x60 k = true ∧ s.room 2 = true ∧ s.resetResult k = 0) ∧
    (∃ t, ∃ o, ∃ v, ∃ s : State, ∃ k, (Instr.resetPath t o v).wf = true ∧ k = v.toNat / 2 ^ 19 * 2 ^ 19 + 3 * 2 ^ 16 + v.toNat % 2
      ^ 16 ∧ s.writable o 0x60 k = true ∧ s.room 2 = true ∧ s.resetResult k = 0 ∧ s.pathEn (k % 256) = true) ∧
    (∃ t, ∃ o, ∃ v, ∃ s : State, ∃ k, (Instr.resetDomain t o v).wf = true ∧ k = v.toNat / 2 ^ 19 * 2 ^ 19 + 4 * 2 ^ 16 + v.toNat %
      2 ^ 16 ∧ s.writable o 0x60 k = true ∧ s.room 2 = true ∧ s.resetResult k = 0) ∧
    (∃ t, ∃ s : State, (Instr.deviceResetEnd t).wf = true ∧ s.pwr.dev = true ∧ s.pwr.fatal = false ∧ s.pwr.clkLost = false ∧
      (s.pwr.devByPin = true ∨ s.pwr.rstLow = true ∨ s.pwr.devSince + 10 * us ≤ max s.now t)) ∧
    (∃ t, ∃ s : State, (Instr.dbgRstNThreshold t).wf = true ∧ s.pwr.por = false ∧ s.pwr.dev = false ∧ s.pwr.fatal = false ∧
      s.pwr.clkLost = false) :=
  ⟨⟨.core 0, 0x00000001, up, 0, by decide +kernel⟩,
    ⟨10 * us, 0, up.modDom 0 (fun x => { x with switching := some 1 }), by decide +kernel⟩,
    ⟨100 * ns, 0, up.modDom 0 (fun x => { x with inReset := true }), by decide +kernel⟩,
    ⟨0, .mgmt, 0xA5000000, up, 0xA5010000, by decide +kernel⟩,
    ⟨0, .mgmt, 0xA5000000, up, 0xA5020000, by decide +kernel⟩,
    ⟨0, .mgmt, 0xA5000000, wired, 0xA5030000, by decide +kernel⟩,
    ⟨0, .mgmt, 0xA5000000, up, 0xA5040000, by decide +kernel⟩,
    ⟨10 * us, up.modPwr (fun p => { p with dev := true }), by decide +kernel⟩,
    ⟨0, up, by decide +kernel⟩⟩

theorem test_meets_register_accesses_complete :
    (∃ o, ∃ a, ∃ v, ∃ s : State, (Instr.registerWrite o a v).wf = true ∧ s.writable o a.toNat v.toNat = true ∧ plainAddr a.toNat =
      true) ∧
    (∃ o, ∃ a, ∃ v, ∃ s : State, (Instr.registerWrite o a v).wf = true ∧ s.unclocked = false ∧ s.fatalRefuses o = false ∧ (¬(o =
      .debug ∧ a.toNat = 0x60010)) ∧ s.room 1 = true ∧ s.writeRefused o false a.toNat v.toNat = true) ∧
    (∃ o, ∃ a, ∃ s : State, (Instr.wideRegisterRead o a).wf = true ∧ s.unclocked = false ∧ words a.toNat 0x70400 16 = false ∧ 1 <
      (spanAt a.toNat).2 ∧ (regInfo a.toNat).isSome = true ∧ (spanAt a.toNat).1 = a.toNat) ∧
    (∃ o, ∃ v, ∃ s : State, ∃ q, ∃ e, (Instr.logRead o v).wf = true ∧ s.writable o 0x30020 v.toNat = true ∧ q = v.toNat + 2 ^ 32 *
      (s.reg 0x30024).toNat ∧ 0 < q ∧ q ≤ s.log.newest ∧ s.log.newest - q < s.log.used ∧ s.log.ring[s.log.newest - q]? = some e) :=
  ⟨⟨.mgmt, 0x500004, 5, up, by decide +kernel⟩,
    ⟨.mgmt, 0x9000000, 1, up, by decide +kernel⟩,
    ⟨.mgmt, 0x10008, up, by decide +kernel⟩,
    ⟨.mgmt, 1, { up with log := { up.log with ring := [⟨1, 0, 8, 0, 0, 0, 0, 0⟩], used := 1, newest := 1 } }, 1, ⟨1, 0, 8, 0, 0,
      0, 0, 0⟩, by decide +kernel⟩⟩

theorem test_meets_staging_completes_1 :
    (∃ o, ∃ k, ∃ a, ∃ v, ∃ m, ∃ s : State, (Instr.stageAppend o k a v m).wf = true ∧ s.unclocked = false ∧ s.fatalRefuses o =
      false ∧ originStages o = true ∧ debugBarred o a.toNat = false ∧ s.appendRefusal k.val a.toNat m.toNat = none ∧ s.room 1 =
      true) ∧
    (∃ o, ∃ k, ∃ s : State, (Instr.stageClear o k).wf = true ∧ s.unclocked = false ∧ s.fatalRefuses o = false ∧ originStages o =
      true ∧ s.room 1 = true) ∧
    (∃ t, ∃ p, ∃ s : State, (Instr.stagePathSwitch t p).wf = true ∧ s.still = false) :=
  ⟨⟨.mgmt, 0, 0x10014, 5, 0xFF, up, by decide +kernel⟩,
    ⟨.mgmt, 0, up, by decide +kernel⟩,
    ⟨0, 0, up, by decide +kernel⟩⟩

theorem test_meets_staging_completes_2 :
    (∃ t, ∃ p, ∃ s : State, (Instr.stageHeldRelease t p).wf = true ∧ s.still = false ∧ s.room s.stg.held.length = true) ∧
    (∃ t, ∃ s : State, (Instr.stageHeldRetry t).wf = true ∧ s.still = false ∧ s.room s.stg.held.length = true) :=
  ⟨⟨0, 0, up, by decide +kernel⟩,
    ⟨0, up, by decide +kernel⟩⟩

theorem test_meets_image_updates_complete :
    (∃ t, ∃ o, ∃ v, ∃ s : State, ∃ c, (Instr.imageUpdateStart t o v).wf = true ∧ s.writable o 0x20 v.toNat = true ∧ s.room 2 =
      true ∧ v.toNat % 2 = 1 ∧ s.inactiveChip v.toNat = some c ∧ s.gon.upd.running = false ∧ s.pwr.fatal = false ∧ s.gon.fwReady =
      true) ∧
    (∃ t, ∃ m, ∃ msg, ∃ rb, ∃ be, ∃ s : State, (Instr.imageData t m msg rb be).wf = true ∧ s.serves m.val msg 3 = true ∧ 8 ≤
      (bodyOf msg).length ∧ field (bodyOf msg) 0 4 % 8 = 0 ∧ field (bodyOf msg) 4 4 = 0 ∧ s.gon.upd.running = true ∧ field (bodyOf
      msg) 0 4 = s.gon.upd.next) ∧
    (∃ t, ∃ m, ∃ msg, ∃ rb, ∃ be, ∃ s : State, (Instr.imageData t m msg rb be).wf = true ∧ s.serves m.val msg 3 = true ∧ 8 ≤
      (bodyOf msg).length ∧ field (bodyOf msg) 0 4 % 8 = 0 ∧ field (bodyOf msg) 4 4 = 0 ∧ s.gon.upd.running = true ∧ field (bodyOf
      msg) 0 4 = s.gon.upd.next ∧ s.gon.upd.stage = 0 ∧ s.gon.upd.next + ((bodyOf msg).length - 8) < 1024) ∧
    (∃ t, ∃ s : State, (Instr.imageUpdateTimeout t).wf = true ∧ s.still = false ∧ s.gon.upd.running = true ∧ s.gon.upd.lastData +
      10000 * ms ≤ max s.now t) :=
  ⟨⟨0, .mgmt, 1, up.modGon (fun g => { g with img := { g.img with noImage := true } }), 0, by decide +kernel⟩,
    ⟨0, 0, request 3 (List.replicate 8 0), true, false, asked (request 3 (List.replicate 8 0)) (up.modUpd (fun u => { u with
      running := true })), by decide +kernel⟩,
    ⟨0, 0, request 3 (List.replicate 8 0), true, false, asked (request 3 (List.replicate 8 0)) (up.modUpd (fun u => { u with
      running := true })), by decide +kernel⟩,
    ⟨10000 * ms, up.modUpd (fun u => { u with running := true }), by decide +kernel⟩⟩

theorem test_meets_key_commands_complete_1 :
    (∃ o, ∃ i, ∃ s : State, (Instr.keyLoad o i).wf = true ∧ s.writable o 0x60010 (1 + 2 ^ 16 * i.val) = true ∧ s.room 2 = true) ∧
    (∃ o, ∃ i, ∃ s : State, (Instr.keyGenerate o i).wf = true ∧ s.writable o 0x60010 (2 + 2 ^ 16 * i.val) = true ∧ s.room 2 = true
      ∧ s.keyResult o 2 i.val 0 = 0) ∧
    (∃ o, ∃ i, ∃ sl, ∃ s : State, (Instr.keyBind o i sl).wf = true ∧ s.writable o 0x60010 (3 + 2 ^ 8 * sl.val + 2 ^ 16 * i.val) =
      true ∧ s.room 2 = true ∧ s.keyResult o 3 i.val sl.val = 0) :=
  ⟨⟨.mgmt, 3, keyed 1, by decide +kernel⟩,
    ⟨.mgmt, 4, keyed 1, by decide +kernel⟩,
    ⟨.mgmt, 3, 2, keyed 1, by decide +kernel⟩⟩

theorem test_meets_key_commands_complete_2 :
    (∃ o, ∃ sl, ∃ s : State, (Instr.keyUnbind o sl).wf = true ∧ s.writable o 0x60010 (4 + 2 ^ 8 * sl.val) = true ∧ s.room 2 = true
      ∧ s.keyResult o 4 0 sl.val = 0) ∧
    (∃ o, ∃ i, ∃ s : State, (Instr.keyClear o i).wf = true ∧ s.writable o 0x60010 (5 + 2 ^ 16 * i.val) = true ∧ s.room 2 = true ∧
      s.keyResult o 5 i.val 0 = 0) :=
  ⟨⟨.mgmt, 2, keyed 1, by decide +kernel⟩,
    ⟨.mgmt, 3, keyed 1, by decide +kernel⟩⟩

theorem test_meets_auto_rekey_and_spool_space_complete :
    (∃ c, ∃ i, ∃ s : State, ∃ o, ∃ j, ∃ n, ∃ s1, ∃ s2, (Instr.autoRekey c i).wf = true ∧ s.still = false ∧ s.gon.fwReady = true ∧
      s.bit 0x60008 16 = true ∧ s.pwr.fatal = false ∧ s.env.auto = none ∧ (s.keyAt i.val).slot = some o ∧ 2 ^ 31 ≤ (s.keyAt
      i.val).counter ∧ ((List.range 256).filter (fun j => decide (s.bits 0x60008 7 0 ≤ j) && decide (j ≤ s.bits 0x60008 15
      8))).find? (fun j => j != 0 && !(s.keyAt j).usable) = some j ∧ s.freeSlot = some n ∧ s1 = keyOp (.core c) 2 j 0 s ∧
      s1.env.result = 0 ∧ s2 = keyOp (.core c) 3 j n s1 ∧ s2.env.result = 0 ∧ (autoLoad c 0 o n s2).sched.result = 0) ∧
    (∃ c, ∃ d, ∃ i, ∃ s : State, (Instr.autoRekey c i).wf = true ∧ s.still = false ∧ s.gon.fwReady = true ∧ s.bit 0x60008 16 =
      true ∧ s.pwr.fatal = false ∧ s.env.auto = some d ∧ s.env.rkState = 3 ∧ (autoLoad d 3 s.env.rkOld s.env.rkNew s).sched.result =
      0) ∧
    (∃ m : Fin 7, ∃ a : BitVec 64, ∃ s : State, ∃ slot, ∃ h, ∃ pc, ∃ r, ∃ b, (Instr.envMemRead m a).wf = true ∧ s.still = false ∧
      spoolAddr a.toNat = some (slot, h, pc, r, b) ∧ inSystem r = false ∧ s.rightsOf m.val slot % 4 = 2 ∧ (s.memWord a.toNat h pc r
      b).2.2 = false ∧ parityUnit h r = false ∧ (s.memWord a.toNat h pc r b).2.1 = slot) ∧
    (∃ m : Fin 7, ∃ a : BitVec 64, ∃ ws, ∃ s : State, ∃ slot, ∃ h, ∃ pc, ∃ r, ∃ b, (Instr.envMemWrite m a ws).wf = true ∧ s.still
      = false ∧ spoolAddr a.toNat = some (slot, h, pc, r, b) ∧ inSystem r = false ∧ s.rightsOf m.val slot / 4 % 2 = 1 ∧ (slot = 0 ∨
      (s.env.slot.get none slot).isSome = true) ∧ parityUnit h r = false ∧ s.unitRec h pc r = none) :=
  ⟨⟨0, 3, rekeys id, 1, 8, 1, rekeyOne, rekeyTwo, by and_intros <;> first | decide +kernel | exact rfl⟩,
    ⟨0, 0, 3, rekeys (fun e => { e with auto := some 0, rkState := 3, rkOld := 1, rkNew := 2 }), by decide +kernel⟩,
    ⟨0, 0x1000000000, (up.setReg 0x60300 6), 0, 1, 0, 0, 0, by decide +kernel⟩,
    ⟨0, 0x1000000000, List.replicate 8 1, (up.setReg 0x60300 6), 0, 1, 0, 0, 0, by decide +kernel⟩⟩

theorem test_meets_mailbox_services_complete :
    (∃ t, ∃ s : State, (Instr.mailboxPost t).wf = true ∧ s.mgmtUp = true ∧ s.writable .mgmt 0x70040 1 = true ∧ (s.mbAt
      0).inQ.length < 8 ∧ headerOk s.mbIn = true) ∧
    (∃ t, ∃ s : State, (Instr.mailboxPop t).wf = true ∧ s.mgmtUp = true ∧ s.writable .mgmt 0x70040 2 = true) ∧
    (∃ t, ∃ m, ∃ msg, ∃ s : State, ∃ a, ∃ n, (Instr.regRead t m msg).wf = true ∧ s.serves m.val msg 1 = true ∧ 5 ≤ (bodyOf
      msg).length ∧ a = field (bodyOf msg) 0 4 ∧ n = field (bodyOf msg) 4 1 ∧ a % 4 = 0 ∧ 0 < n ∧ n ≤ 60 ∧ (∀ i, i < n → words (a +
      4 * i) 0x70400 16 = false)) ∧
    (∃ t, ∃ m, ∃ msg, ∃ s : State, (Instr.regRead t m msg).wf = true ∧ s.serves m.val msg 1 = true ∧ (bodyOf msg).length < 5) ∧
    (∃ t, ∃ m, ∃ msg, ∃ s : State, ∃ a, ∃ w, (Instr.regWrite t m msg).wf = true ∧ s.serves m.val msg 2 = true ∧ (bodyOf
      msg).length = 12 ∧ a = field (bodyOf msg) 0 4 ∧ w = (masked ((s.serving t m.val).word a) (BitVec.ofNat 32 (field (bodyOf msg)
      4 4)) (BitVec.ofNat 32 (field (bodyOf msg) 8 4))).toNat ∧ plainAddr a = true ∧ s.pwr.fatal = false ∧ s.room 1 = true ∧
      (s.serving t m.val).writeRefused (mbOrigin m.val) true a w = false) ∧
    (∃ t, ∃ m, ∃ msg, ∃ s : State, ∃ d, ∃ i, (Instr.clockSwitch t m msg).wf = true ∧ s.serves m.val msg 4 = true ∧ 3 ≤ (bodyOf
      msg).length ∧ d = field (bodyOf msg) 0 2 ∧ i = field (bodyOf msg) 2 1 ∧ s.pwr.fatal = false ∧ d < 206 ∧ i ≤ 3 ∧ (s.domAt
      d).inReset = false ∧ (s.domAt d).switching = none ∧ (s.serving t m.val).switchSafe d i = true ∧ s.room 1 = true ∧
      protectedDomain d = false ∧ (domInputs d).contains i = true ∧ (s.domAt d).edges (s.domAt d).input = true ∧ (s.domAt d).edges i
      = true ∧ s.gon.muxAsk = none) ∧
    (∃ t, ∃ m, ∃ msg, ∃ s : State, ∃ h, ∃ c, (Instr.hbmRetire t m msg).wf = true ∧ s.serves m.val msg 5 = true ∧ 2 ≤ (bodyOf
      msg).length ∧ h = field (bodyOf msg) 0 1 ∧ c = field (bodyOf msg) 1 1 ∧ h ≤ 3 ∧ c ≤ 29 ∧ s.pwr.fatal = false ∧ (s.hbmAt
      h).unmapped.getLsbD c = false) ∧
    (∃ t, ∃ m, ∃ msg, ∃ s : State, (Instr.version t m msg).wf = true ∧ s.serves m.val msg 7 = true) :=
  ⟨⟨0, smbus, by decide +kernel⟩,
    ⟨0, smbus, by decide +kernel⟩,
    ⟨0, 0, request 1 [0, 1, 0, 0x14, 1], asked (request 1 [0, 1, 0, 0x14, 1]) up, 0x10014, 1, by decide +kernel⟩,
    ⟨0, 0, request 1 [0], asked (request 1 [0]) up, by decide +kernel⟩,
    ⟨0, 0, request 2 [0, 0x50, 0, 4, 0, 0, 0, 5, 0, 0, 0, 0xFF], asked (request 2 [0, 0x50, 0, 4, 0, 0, 0, 5, 0, 0, 0, 0xFF]) up,
      0x500004, 5, by decide +kernel⟩,
    ⟨0, 0, request 4 [0, 0, 1], asked (request 4 [0, 0, 1]) (up.modDom 0 (fun x => { x with lock := true })), 0, 1,
      by decide +kernel⟩,
    ⟨0, 0, request 5 [1, 2], asked (request 5 [1, 2]) up, 1, 2, by decide +kernel⟩,
    ⟨0, 0, request 7 [], asked (request 7 []) up, by decide +kernel⟩⟩

theorem test_meets_patching_completes :
    (∃ t, ∃ m, ∃ msg, ∃ s : State, ∃ off, (Instr.patchChunk t m msg).wf = true ∧ s.serves m.val msg 6 = true ∧ 8 ≤ (bodyOf
      msg).length ∧ field (bodyOf msg) 0 1 = 1 ∧ off = field (bodyOf msg) 4 4 ∧ (off = 0 ∨ off = s.gon.pkg.length) ∧ off + ((bodyOf
      msg).length - 8) ≤ packageMax) ∧
    (∃ t, ∃ m, ∃ msg, ∃ s : State, (Instr.patchCommit t m msg).wf = true ∧ s.serves m.val msg 6 = true ∧ 8 ≤ (bodyOf msg).length ∧
      field (bodyOf msg) 0 1 = 2 ∧ s.room 128 = true) ∧
    (∃ t, ∃ m, ∃ msg, ∃ s : State, (Instr.patchClear t m msg).wf = true ∧ s.serves m.val msg 6 = true ∧ (bodyOf msg).length ≠ 0 ∧
      field (bodyOf msg) 0 1 = 3 ∧ s.room 64 = true) ∧
    (∃ s : State, (Instr.gonPatch).wf = true ∧ s.still = false) :=
  ⟨⟨0, 0, request 6 [1, 0, 0, 0, 0, 0, 0, 0, 9], asked (request 6 [1, 0, 0, 0, 0, 0, 0, 0, 9]) up, 0, by decide +kernel⟩,
    ⟨0, 0, request 6 [2, 0, 0, 0, 0, 0, 0, 0], asked (request 6 [2, 0, 0, 0, 0, 0, 0, 0]) up, by decide +kernel⟩,
    ⟨0, 0, request 6 [3], asked (request 6 [3]) up, by decide +kernel⟩,
    ⟨up, by decide +kernel⟩⟩

theorem test_meets_cores_and_locks_complete_1 :
    (∃ m, ∃ a, ∃ s : State, (Instr.gonEcc ⟨m, true, a⟩).wf = true ∧ s.still = false) ∧
    (∃ w, ∃ c, ∃ a, ∃ s : State, (Instr.gonEcc ⟨.codeRam w c, false, a⟩).wf = true ∧ s.still = false) ∧
    (∃ w, ∃ c, ∃ a, ∃ s : State, (Instr.gonEcc ⟨.dataRam w c, false, a⟩).wf = true ∧ s.still = false) :=
  ⟨⟨.l2Clean, 0, up, by decide +kernel⟩,
    ⟨0, none, 0, up, by decide +kernel⟩,
    ⟨0, none, 0, up, by decide +kernel⟩⟩

theorem test_meets_cores_and_locks_complete_2 :
    (∃ m, ∃ w, ∃ c, ∃ a, ∃ s : State, (Instr.gonEcc ⟨m, false, a⟩).wf = true ∧ s.still = false ∧ (m = .l1dDirty c w ∨ m = .l2Dirty
      w)) ∧
    (∃ m, ∃ c, ∃ a, ∃ s : State, (Instr.gonEcc ⟨m, false, a⟩).wf = true ∧ s.still = false ∧ (m = .l1i c ∨ m = .l1dClean c ∨ m =
      .l2Clean)) ∧
    (∃ a, ∃ s : State, (Instr.gonEcc ⟨.patchRam, false, a⟩).wf = true ∧ s.still = false) ∧
    (∃ a, ∃ s : State, (Instr.gonEcc ⟨.bootRom, false, a⟩).wf = true ∧ s.still = false ∧ s.stepDone 8 = false) ∧
    (∃ t, ∃ c, ∃ d, ∃ s : State, (Instr.watchdogExpiry t c d).wf = true ∧ s.still = false ∧ (s.coreAt c.val).halted = false ∧ (d =
      true ∨ (s.coreAt c.val).wdt + 10 * ms ≤ max s.now t)) ∧
    (∃ o, ∃ v, ∃ s : State, (Instr.watchdogRestart o v).wf = true ∧ s.writable o 0x70010 v.toNat = true) ∧
    (∃ t, ∃ s : State, (Instr.quietDetect t).wf = true ∧ s.still = false ∧ (∀ c : Fin 4, (s.coreAt c.val).halted = false) ∧
      s.armed (srcGlobal 57) = true) :=
  ⟨⟨.l2Dirty 0, 0, 0, 0, up, by decide +kernel⟩,
    ⟨.l2Clean, 0, 0, up, by decide +kernel⟩,
    ⟨0, up, by decide +kernel⟩,
    ⟨0, up.modPwr (fun p => { p with steps := 0xFE }), by decide +kernel⟩,
    ⟨0, 0, true, up, by decide +kernel⟩,
    ⟨.core 0, 1, up, by decide +kernel⟩,
    ⟨0, up, by decide +kernel⟩⟩

theorem test_meets_cores_and_locks_complete_3 :
    (∃ c, ∃ s : State, (Instr.coreTimer c).wf = true ∧ s.still = false ∧ s.calm = true ∧ (s.coreAt c.val).halted = false) ∧
    (∃ t, ∃ o, ∃ n, ∃ s : State, (Instr.lockAcquire t o n).wf = true ∧ s.unclocked = false ∧ (s.gon.lock.get {} n.val).holder =
      none ∧ lockAllowed o n.val = true) ∧
    (∃ o, ∃ n, ∃ v, ∃ s : State, (Instr.lockRelease o n v).wf = true ∧ s.writable o (0x70400 + 4 * n.val) v.toNat = true ∧ v = 0 ∧
      (s.gon.lock.get {} n.val).holder = some o) ∧
    (∃ t, ∃ n, ∃ s : State, ∃ h, (Instr.lockTimeout t n).wf = true ∧ s.still = false ∧ (s.gon.lock.get {} n.val).holder = some h ∧
      (s.gon.lock.get {} n.val).since + ms < max s.now t) :=
  ⟨⟨0, up, by decide +kernel⟩,
    ⟨0, .core 0, 0, up, by decide +kernel⟩,
    ⟨.core 0, 0, 0, up.modLock 0 (fun x => { x with holder := some (.core 0) }), by decide +kernel⟩,
    ⟨2 * ms, 0, up.modLock 0 (fun x => { x with holder := some (.core 0) }), .core 0, by decide +kernel⟩⟩

theorem test_meets_management_transfers_complete :
    (∃ bs, ∃ p, ∃ s : State, (Instr.mgmtAddr bs p).wf = true ∧ s.transfers p = true ∧ bs.length = 4 ∧ ofBytes bs % 4 = 0) ∧
    (∃ bs, ∃ p, ∃ s : State, ∃ a, (Instr.mgmtWrite bs p).wf = true ∧ s.transfers p = true ∧ bs.length = 4 ∧ a = s.gon.mgmt.addr ∧
      plainAddr a.toNat = true ∧ s.writable .mgmt a.toNat (ofBytes bs) = true) ∧
    (∃ p, ∃ n, ∃ s : State, ∃ k, (Instr.mgmtRead p n).wf = true ∧ s.transfers p = true ∧ s.gon.mgmt.ahead ≠ [] ∧ k = (if s.smbus
      then s.gon.mgmt.rlen / 4 else n)) ∧
    (∃ p, ∃ s : State, (Instr.mgmtStatus p).wf = true ∧ s.transfers p = true) ∧
    (∃ bs, ∃ p, ∃ s : State, (Instr.rlen bs p).wf = true ∧ s.transfers p = true ∧ bs.length = 1 ∧ 4 ≤ ofBytes bs ∧ ofBytes bs ≤
      252 ∧ ofBytes bs % 4 = 0) ∧
    (∃ s : State, (Instr.alertResponse).wf = true ∧ s.mgmtUp = true ∧ s.smbus = true ∧ s.alertLow = true) ∧
    (∃ s : State, (Instr.mgmtBadTransfer).wf = true ∧ s.mgmtUp = true) :=
  ⟨⟨[0, 1, 0, 0x14], none, smbus, by decide +kernel⟩,
    ⟨[0, 0, 0, 5], none, smbus.modGon (fun g => { g with mgmt := { g.mgmt with addr := 0x500004 } }), 0x500004, by decide +kernel⟩,
    ⟨none, 1, smbus.modGon (fun g => { g with mgmt := { g.mgmt with ahead := [some 1] } }), 8, by decide +kernel⟩,
    ⟨none, smbus, by decide +kernel⟩,
    ⟨[16], none, smbus, by decide +kernel⟩,
    ⟨{ smbus with flt := { smbus.flt with alertN := true }, pwr := { smbus.pwr with fatal := true } }, by decide +kernel⟩,
    ⟨smbus, by decide +kernel⟩⟩

theorem test_meets_i3c_and_lines_complete_1 :
    (∃ a, ∃ s : State, (Instr.entdaa a).wf = true ∧ s.onI3c = true ∧ s.gon.mgmt.dynAddr = 0) ∧
    (∃ a, ∃ s : State, (Instr.setdasa a).wf = true ∧ s.onI3c = true ∧ s.gon.mgmt.dynAddr = 0) ∧
    (∃ s : State, (Instr.rstdaa).wf = true ∧ s.onI3c = true) ∧
    (∃ s : State, (Instr.enec).wf = true ∧ s.onI3c = true) ∧
    (∃ s : State, (Instr.disec).wf = true ∧ s.onI3c = true) :=
  ⟨⟨8, up, by decide +kernel⟩,
    ⟨8, up, by decide +kernel⟩,
    ⟨up, by decide +kernel⟩,
    ⟨up, by decide +kernel⟩,
    ⟨up, by decide +kernel⟩⟩

theorem test_meets_i3c_and_lines_complete_2 :
    (∃ s : State, (Instr.getpid).wf = true ∧ s.onI3c = true) ∧
    (∃ s : State, (Instr.getbcr).wf = true ∧ s.onI3c = true) ∧
    (∃ s : State, (Instr.getdcr).wf = true ∧ s.onI3c = true) :=
  ⟨⟨up, by decide +kernel⟩,
    ⟨up, by decide +kernel⟩,
    ⟨up, by decide +kernel⟩⟩

theorem test_meets_i3c_and_lines_complete_3 :
    (∃ s : State, (Instr.getstatus).wf = true ∧ s.onI3c = true) ∧
    (∃ c, ∃ s : State, (Instr.unsupportedCcc c).wf = true ∧ s.onI3c = true) ∧
    (∃ t, ∃ s : State, (Instr.mgmtLine t).wf = true ∧ s.still = false ∧ s.mgmtMode ≠ 3) ∧
    (∃ t, ∃ s : State, (Instr.mgmtLinesHigh t).wf = true ∧ s.still = false) :=
  ⟨⟨up, by decide +kernel⟩,
    ⟨0xFF, up, by decide +kernel⟩,
    ⟨0, up, by decide +kernel⟩,
    ⟨0, up, by decide +kernel⟩⟩

theorem test_meets_i3c_and_lines_complete_4 :
    (∃ t, ∃ s : State, (Instr.ibiRepeat t true).wf = true ∧ s.still = false ∧ s.calm = true) ∧
    (∃ t, ∃ s : State, (Instr.ibiRepeat t false).wf = true ∧ s.still = false ∧ s.calm = true ∧ s.gon.mgmt.ibiPend = some 1 ∧
      s.alertRecord = true) :=
  ⟨⟨0, up, by decide +kernel⟩,
    ⟨0, alerting, by decide +kernel⟩⟩

theorem test_meets_debug_sessions_complete :
    (∃ t, ∃ i, ∃ s : State, (Instr.ident t i).wf = true ∧ s.framed 0 1 = true ∧ i.toNat ≤ 3) ∧
    (∃ t, ∃ a, ∃ s : State, ∃ level, ∃ i, (Instr.challenge t a).wf = true ∧ s.framed 0 1 = true ∧ a.toNat < 2 ^ 16 ∧ level =
      a.toNat / 2 ^ 8 ∧ i = a.toNat % 256 ∧ (level = 1 ∨ level = 2) ∧ i ≠ 0 ∧ (s.at t).challengeCheck level i = 0) ∧
    (∃ t, ∃ mac, ∃ s : State, ∃ c, ∃ e, ∃ level, ∃ i, (Instr.respond t mac).wf = true ∧ s.framed 0 1 = true ∧ (s.at t).expectedMac
      = some mac ∧ s.dbg.chal = some (c, e, level, i)) ∧
    (∃ t, ∃ mac, ∃ s : State, (Instr.respond t mac).wf = true ∧ s.framed 0 1 = true ∧ (s.at t).expectedMac ≠ some mac) ∧
    (∃ t, ∃ s : State, (Instr.endSession t).wf = true ∧ s.framed 1 1 = true) ∧
    (∃ s : State, (Instr.dbgFrameAbandon).wf = true ∧ s.pwr.por = false) ∧
    (∃ s : State, (Instr.dbgCommandTimeout).wf = true ∧ s.dbgServed = true) ∧
    (∃ t, ∃ unit, ∃ lows, ∃ s : State, ∃ bs, ∃ body, (Instr.dbgBadFrame t unit lows).wf = true ∧ s.dbgServed = true ∧ bs =
      cellBytes unit lows ∧ body = bs.take (bs.length - 1) ∧ (lows.length % 8 ≠ 0 ∨ body = [] ∨ crc8 (unpackBits body) ≠ field bs
      (bs.length - 1) 1)) ∧
    (∃ t, ∃ unit, ∃ lows, ∃ s : State, ∃ bs, ∃ body, (Instr.dbgBadFrame t unit lows).wf = true ∧ s.dbgServed = true ∧ bs =
      cellBytes unit lows ∧ body = bs.take (bs.length - 1) ∧ lows.length % 8 = 0 ∧ body ≠ [] ∧ crc8 (unpackBits body) = field bs
      (bs.length - 1) 1 ∧ (dbgArgs (field bs 0 1) ≠ some (body.length / 4) ∨ body.length % 4 ≠ 1) ∧ s.room 1 = true) ∧
    (∃ t, ∃ s : State, ∃ c, ∃ e, ∃ l, ∃ i, (Instr.challengeVoid t).wf = true ∧ s.dbg.chal = some (c, e, l, i) ∧ e + 10 * sec ≤ max
      s.now t) ∧
    (∃ t, ∃ s : State, ∃ e, (Instr.lockoutEnd t).wf = true ∧ s.dbg.lockEnd = some e ∧ e ≤ max s.now t) ∧
    (∃ t, ∃ s : State, (Instr.dbgSessionIdle t).wf = true ∧ s.dbgServed = true ∧ s.dbg.isOpen = true ∧ s.dbg.lastFrame + 60 * sec
      ≤ max s.now t) :=
  ⟨⟨0, 0, up, by decide +kernel⟩,
    ⟨0, 0x103, (keyed 2).setReg 0x80008 0x3, 1, 3, by decide +kernel⟩,
    ⟨0, Config.debugMac ((up.modKey 3 (fun k => { k with loaded := true, kind := 2 })).keyAt 3).record (bytesOf 16 0 ++ bytesOf 8
      up.dbgIdentity.toNat ++ bytesOf 1 1 ++ bytesOf 1 3), (up.modKey 3 (fun k => { k with loaded := true, kind := 2 })).modDbg (fun
      d => { d with chal := some (0, 0, 1, 3) }), 0, 0, 1, 3, ⟨by decide +kernel, by decide +kernel, rfl, by decide +kernel⟩⟩,
    ⟨0, 0, up, ⟨by decide +kernel, by decide +kernel, nofun⟩⟩,
    ⟨0, session, by decide +kernel⟩,
    ⟨up, by decide +kernel⟩,
    ⟨up, by decide +kernel⟩,
    ⟨0, 160, [100], up, [], [], by decide +kernel⟩,
    ⟨0, 160, List.replicate 16 100, up, [0, 0], [0], by decide +kernel⟩,
    ⟨10 * sec, up.modDbg (fun d => { d with chal := some (0, 0, 1, 3) }), 0, 0, 1, 3, by decide +kernel⟩,
    ⟨0, up.modDbg (fun d => { d with lockEnd := some 0 }), 0, by decide +kernel⟩,
    ⟨60 * sec, session, by decide +kernel⟩⟩

theorem test_meets_debug_accesses_complete :
    (∃ t, ∃ a, ∃ s : State, (Instr.dbgRegRead t a).wf = true ∧ s.framed 1 1 = true ∧ a.toNat % 4 = 0) ∧
    (∃ t, ∃ a, ∃ v, ∃ s : State, (Instr.dbgRegWrite t a v).wf = true ∧ s.framed 2 2 = true ∧ a.toNat % 4 = 0 ∧ plainAddr a.toNat =
      true ∧ s.writeRefused .debug false a.toNat v.toNat = false) ∧
    (∃ t, ∃ hi, ∃ lo, ∃ s : State, ∃ slot, ∃ h, ∃ pc, ∃ r, ∃ b, (Instr.memRead t hi lo).wf = true ∧ s.framed 1 1 = true ∧ spoolBad
      hi lo = false ∧ s.pwr.fatal = false ∧ spoolAddr (hi.toNat * 2 ^ 32 + lo.toNat) = some (slot, h, pc, r, b) ∧ inSystem r = false
      ∧ s.rightsOf 4 slot % 4 = 2 ∧ (s.memWord (hi.toNat * 2 ^ 32 + lo.toNat) h pc r b).2.2 = false ∧ parityUnit h r = false ∧
      (s.memWord (hi.toNat * 2 ^ 32 + lo.toNat) h pc r b).2.1 = slot) ∧
    (∃ t, ∃ hi, ∃ lo, ∃ ws, ∃ s : State, ∃ slot, ∃ h, ∃ pc, ∃ r, ∃ b, (Instr.memWrite t hi lo ws).wf = true ∧ s.framed 2 1 = true
      ∧ spoolBad hi lo = false ∧ ws.length = 8 ∧ spoolAddr (hi.toNat * 2 ^ 32 + lo.toNat) = some (slot, h, pc, r, b) ∧ inSystem r =
      false ∧ s.rightsOf 4 slot / 4 % 2 = 1 ∧ (slot = 0 ∨ (s.env.slot.get none slot).isSome = true) ∧ parityUnit h r = false ∧
      s.unitRec h pc r = none) ∧
    (∃ t, ∃ m, ∃ a, ∃ s : State, (Instr.gmemRead t m a).wf = true ∧ s.framed 1 1 = true ∧ gmemBad m a = false ∧ m.toNat ≠ 3 ∧
      (s.gmemWord m.toNat a.toNat).2 = false) ∧
    (∃ t, ∃ a, ∃ ws, ∃ s : State, (Instr.gmemWrite t 1 a ws).wf = true ∧ s.framed 2 1 = true ∧ gmemBad 1 a = false ∧ ws.length =
      8) :=
  ⟨⟨0, 0x10014, session, by decide +kernel⟩,
    ⟨0, 0x500004, 5, session, by decide +kernel⟩,
    ⟨0, 0x10, 0, session.setReg 0x60320 6, 0, 1, 0, 0, 0, by decide +kernel⟩,
    ⟨0, 0x10, 0, List.replicate 8 1, session.setReg 0x60320 6, 0, 1, 0, 0, 0, by decide +kernel⟩,
    ⟨0, 1, 0, session, by decide +kernel⟩,
    ⟨0, 0, List.replicate 8 1, session, by decide +kernel⟩⟩

theorem test_meets_run_control_completes :
    (∃ t, ∃ a, ∃ s : State, (Instr.dbgHalt t a).wf = true ∧ s.framed 2 1 = true ∧ a.toNat / 2 ^ 8 = 0 ∧ a.toNat / 8 % 2 = 0) ∧
    (∃ t, ∃ a, ∃ s : State, (Instr.dbgResume t a).wf = true ∧ s.framed 2 1 = true ∧ a.toNat / 2 ^ 8 = 0 ∧ a.toNat / 8 % 2 = 0) ∧
    (∃ t, ∃ a, ∃ s : State, (Instr.dbgStep t a).wf = true ∧ s.framed 2 1 = true ∧ a.toNat / 2 ^ 8 % 256 = 0 ∧ a.toNat / 2 ^ 16 ≠ 0
      ∧ a.toNat / 8 % 2 = 0 ∧ (∀ c : Fin 4, Nat.testBit (runMask (runArg 3 a)) c.val = true → (s.coreAt c.val).halted = true)) ∧
    (∃ t, ∃ a, ∃ s : State, (Instr.dbgHaltOnStart t a).wf = true ∧ s.framed 2 1 = true ∧ a.toNat / 2 ^ 8 = 0 ∧ a.toNat / 8 % 2 =
      0) ∧
    (∃ t, ∃ a, ∃ s : State, (Instr.coreRead t a).wf = true ∧ s.framed 1 1 = true ∧ a.toNat < 2 ^ 10 ∧ (s.coreAt (coreOf a)).halted
      = true) ∧
    (∃ t, ∃ a, ∃ hi : Word, ∃ lo : Word, ∃ s : State, (Instr.coreWrite t a hi lo).wf = true ∧ s.framed 2 1 = true ∧ a.toNat < 2 ^
      10 ∧ (s.coreAt (coreOf a)).halted = true) ∧
    (∃ t, ∃ a, ∃ f, ∃ s : State, ∃ v, ∃ n, (Instr.bkptEnable t a f).wf = true ∧ s.framed 2 2 = true ∧ v = a.toNat / 2 * 2 + 1 ∧
      bkptBad v = false ∧ s.flashOk f.toNat = true ∧ n = bkptUnit v ∧ ((s.unitAt n).enable = false ∨ (s.unitAt n).brk = true)) ∧
    (∃ t, ∃ a, ∃ f, ∃ s : State, ∃ v, ∃ n, (Instr.bkptDisable t a f).wf = true ∧ s.framed 2 2 = true ∧ v = a.toNat / 2 * 2 ∧
      bkptBad v = false ∧ n = bkptUnit v ∧ (s.unitAt n).enable = true) ∧
    (∃ c, ∃ n, ∃ s : State, (Instr.breakpointHit c n).wf = true ∧ s.still = false ∧ (s.unitAt n.val).enable = true ∧ (s.unitAt
      n.val).brk = true ∧ (s.unitAt n.val).mask.getLsbD c.val = true ∧ (s.coreAt c.val).halted = false) :=
  ⟨⟨0, 0x10, session, by decide +kernel⟩,
    ⟨0, 0x10, session, by decide +kernel⟩,
    ⟨0, 0x10010, halted, by decide +kernel⟩,
    ⟨0, 0x10, session, by decide +kernel⟩,
    ⟨0, 0, halted, by decide +kernel⟩,
    ⟨0, 0, 0, 1, halted, by decide +kernel⟩,
    ⟨0, 0, 0, session.modGon (fun g => { g with img := { g.img with flash := [(0, 0, 1024)] } }), 1, 0, by decide +kernel⟩,
    ⟨0, 0, 0, session.modUnit 0 (fun u => { u with enable := true }), 0, 0, by decide +kernel⟩,
    ⟨0, 0, up.modUnit 0 (fun u => { u with enable := true, brk := true, mask := 1 }), by decide +kernel⟩⟩

/-! ### The statements over all commands, and the stated rules -/

theorem test_meets_step_runs_the_front_command :
    (∃ c rest, ∃ s : State, s.pending = c :: rest) ∧ (∃ s : State, s.pending = []) :=
  ⟨⟨.spoolEcc, [], { up with pending := [.spoolEcc] }, rfl⟩, ⟨up, rfl⟩⟩

theorem test_meets_pins_follow_their_conditions : ∃ s t : State, s.pinsFollow = true ∧ step s = .next t :=
  ⟨{ up with pending := [.spoolEcc] }, _, by decide +kernel, rfl⟩

theorem test_meets_monitors_and_accesses_spare_the_rest : ∃ c, ∃ s u : State, Machine.sparing c = true ∧ exec c s = .next u :=
  ⟨.spoolEcc, up, _, by decide +kernel, rfl⟩

theorem test_meets_lane_and_train_events_spare_the_rest :
    (∃ c l, ∃ s u : State, laneOf c = some l ∧ exec c s = .next u) ∧ (∃ c, ∃ s u : State, ofTrain c = true ∧ exec c s = .next u) :=
  ⟨⟨.rxLos 3, 3, up, _, by decide +kernel, rfl⟩, ⟨.trainRoundStart 0, train 0, _, by decide +kernel, rfl⟩⟩

theorem test_meets_table_commands_spare_the_rest :
    (∃ s u : State, exec (.schedLoad .mgmt 3 0 0 0 0) s = .next u) ∧ (∃ s u : State, exec (.schedCancel .mgmt 3) s = .next u) ∧
    (∃ s u : State, exec (.stageAppend .mgmt 3 0x10014 5 0xFF) s = .next u) ∧ (∃ s u : State, exec (.stageClear .mgmt 3) s = .next u) ∧
    (∃ s u : State, exec (.keyLoad .mgmt 3) s = .next u) ∧ (∃ s u : State, exec (.keyUnbind .mgmt 3) s = .next u) :=
  ⟨⟨locked, _, rfl⟩, ⟨locked, _, rfl⟩, ⟨up, _, rfl⟩, ⟨up, _, rfl⟩, ⟨keyed 1, _, rfl⟩, ⟨keyed 1, _, rfl⟩⟩

theorem test_meets_reads_spare_the_rest :
    (∃ s u : State, exec (.wideRegisterRead .mgmt 0x10008) s = .next u) ∧ (∃ s u : State, exec (.mgmtAddr [0, 1, 0, 0] none) s = .next u) ∧
    (∃ s u : State, exec (.mgmtRead none 1) s = .next u) ∧ (∃ s u : State, exec (.regRead 0 0 (request 1 [0, 1, 0, 0x14, 1])) s = .next u) ∧
    (∃ s u : State, exec (.dbgRegRead 0 0x10014) s = .next u) :=
  ⟨⟨up, _, rfl⟩, ⟨smbus, _, rfl⟩, ⟨smbus, _, rfl⟩, ⟨asked (request 1 [0, 1, 0, 0x14, 1]) up, _, rfl⟩, ⟨session, _, rfl⟩⟩

theorem test_meets_an_address_without_register :
    (regInfo 0x10014).isSome = true ∧ regInfo 0x10016 = none ∧ regInfo 0xFFFFFFFC = none ∧
    (up.unclocked = false ∧ up.room 1 = true ∧ regInfo (0x10016#32).toNat = none) := by decide +kernel

theorem test_meets_a_stuck_management_line :
    (up.still = false ∧ up.mgmtMode ≠ 3) ∧
    (let s := up.modPwr (fun p => { p with strap := 0xC000 });
     s.mgmtMode = 3 ∧ s.inReset = false ∧ s.gon.mgmt.stuck = false ∧ s.still = false) := by decide +kernel

theorem test_meets_fatal_refuses_writes :
    ∃ o : Origin, ∃ s : State, s.unclocked = false ∧ s.pwr.fatal = true ∧ o ≠ .debug ∧ o ≠ .hardware :=
  ⟨.mgmt, up.modPwr (fun p => { p with fatal := true }), by decide +kernel⟩

end Sys2Proof.Tests
end

section
/-! The frames of the family "scope": what one event may write, said once as `Spares`; each shared operation of the lane front and of
the train unit is shown to be a `Spares`, and each command is assembled from them. -/

namespace Sys2Proof.Machine

/-! ### Frames of events -/

/-- `t` is `s` after an event whose own writes leave alone the queue, the registers, the schedule, the units, every byte of memory,
the lanes in `F`, and, where `T` holds, the train unit. Reactions of Ripcord and entries of the Logbook (`Reacts`) may come with it. -/
structure Spares (T : Prop) (F : Nat → Prop) (s t : State) : Prop where
  pending : t.pending = s.pending
  regs : t.regs = s.regs
  sched : t.sched = s.sched
  stg : t.stg = s.stg
  dom : t.dom = s.dom
  quad : t.quad = s.quad
  reel : t.reel = s.reel
  sto : t.sto = s.sto
  env : t.env = s.env
  trn : T → t.trn = s.trn
  beat : t.beat.kept = s.beat.kept
  lane : ∀ l, F l → (t.laneAt l).kept = (s.laneAt l).kept
  mem : t.spl.mem = s.spl.mem
  code : t.gon.code = s.gon.code
  data : t.gon.data = s.gon.data
  patch : t.gon.patch = s.gon.patch

/-- Every next state of the outcome `o` of a command in `s` spares the rest. -/
def SparesRest (T : Prop) (F : Nat → Prop) (s : State) (o : Host.Outcome State Fault Refusal) : Prop :=
  ∀ u, o = .next u → Spares T F s u

namespace Spares

variable {T : Prop} {F : Nat → Prop} {s t u : State} {l : Nat}

/-! ### Composition -/

theorem ofReacts (h : Reacts s t) : Spares T F s t where
  pending := h.pending
  regs := h.regs
  sched := h.sched
  stg := h.stg
  dom := h.dom
  quad := h.quad
  reel := h.reel
  sto := h.sto
  env := h.env
  trn _ := h.trn
  beat := h.beat
  lane k _ := h.lane k
  mem := (congrArg SplSt.mem h.spl :)
  code := (congrArg GonSt.code h.gon :)
  data := (congrArg GonSt.data h.gon :)
  patch := (congrArg GonSt.patch h.gon :)

theorem refl (s : State) : Spares T F s s := ofReacts (Reacts.refl s)

theorem trans (h : Spares T F s t) (g : Spares T F t u) : Spares T F s u where
  pending := g.pending.trans h.pending
  regs := g.regs.trans h.regs
  sched := g.sched.trans h.sched
  stg := g.stg.trans h.stg
  dom := g.dom.trans h.dom
  quad := g.quad.trans h.quad
  reel := g.reel.trans h.reel
  sto := g.sto.trans h.sto
  env := g.env.trans h.env
  trn k := (g.trn k).trans (h.trn k)
  beat := g.beat.trans h.beat
  lane j k := (g.lane j k).trans (h.lane j k)
  mem := g.mem.trans h.mem
  code := g.code.trans h.code
  data := g.data.trans h.data
  patch := g.patch.trans h.patch

theorem ite {c : Prop} [Decidable c] {a b : State} (h : Spares T F s a) (g : Spares T F s b) :
    Spares T F s (if c then a else b) := by
  split
  · exact h
  · exact g

/-- A further change made on a condition. -/
theorem thenIf {c : Prop} [Decidable c] {a b : State} (h : Spares T F s b) (g : Spares T F b a) :
    Spares T F s (if c then a else b) :=
  ite (h.trans g) h

theorem each {l : List Nat} {f : Nat → State → State} (h : ∀ n u, Spares T F u (f n u)) (g : Spares T F s t) :
    Spares T F s (Machine.each l f t) := by
  unfold Machine.each
  induction l generalizing t with
  | nil => exact g
  | cons n l ih => exact ih (g.trans (h n t))

/-- The settling at the end of a command is a reaction, so a command spares what its effect spares. -/
theorem ofDone {f : State → State} (h : ∀ v, Spares T F v (f v)) : SparesRest T F s (done f s) := by
  intro u e
  cases e
  exact (h s).trans (ofReacts (Reacts.settle s))

theorem ofLive {f : State → State} (h : ∀ v, Spares T F v (f v)) : SparesRest T F s (live f s) :=
  ofDone (fun v => ite (refl v) (h v))

/-! ### Changes of one part -/

theorem setNow (n : Nat) : Spares T F s (s.at n) := { refl s with }

theorem modLane (hl : ¬F l) (f : LaneSt → LaneSt) : Spares T F s (s.modLane l f) :=
  { refl (T := T) (F := F) s with
    lane := fun _ hj => congrArg LaneSt.kept (State.laneAt_modLane_ne s f (fun e => hl (e ▸ hj))) }

theorem modLtr (n : Nat) (f : LaneTr → LaneTr) : Spares T F s (s.modLtr n f) := { refl s with }

theorem modPort (n : Nat) (f : PortSt → PortSt) : Spares T F s (s.modPort n f) := { refl s with }

theorem modPath (n : Nat) (f : PathSt → PathSt) : Spares T F s (s.modPath n f) := { refl s with }

theorem modSrc (n : Nat) (f : SrcSt → SrcSt) : Spares T F s (s.modSrc n f) := ofReacts (Reacts.modSrc n f)

theorem modTrn (hT : ¬T) (f : TrnSt → TrnSt) : Spares T F s (s.modTrn f) :=
  { refl (T := T) (F := F) s with trn := fun h => absurd h hT }

theorem modPeer (hT : ¬T) (m : Nat) (f : PeerSt → PeerSt) : Spares T F s (s.modPeer m f) := modTrn hT _

/-! ### Raisings and the ends of conditions -/

theorem raise (n : Nat) : Spares T F s (Machine.raise n s) := ofReacts (Reacts.raise n)

theorem logEvent (r : LogReq) : Spares T F s (s.logEvent r) := ofReacts (Reacts.logEvent r)

/-- Clearing any source, also that of a path slot, whose cause bits end with it (R549). -/
theorem clearSource (n : Nat) : Spares T F s (Machine.clearSource n s) :=
  each (fun _ _ => ofReacts (Reacts.unhold _ _)) (thenIf (modSrc _ _) (modPath _ _))

theorem condEnd (n : Nat) : Spares T F s (Machine.condEnd n s) :=
  ite ((modSrc _ _).trans (modSrc _ _)) (thenIf (modSrc _ _) (clearSource _))

theorem groupEnd (n b : Nat) : Spares T F s (Machine.groupEnd n b s) := thenIf (modSrc _ _) (condEnd _)

theorem laneRaise (l i : Nat) : Spares T F s (Machine.laneRaise l i s) := by
  unfold Machine.laneRaise
  refine ite (raise _) ?_
  dsimp only
  split
  case h_9 => exact refl s
  all_goals exact ofReacts (Reacts.raiseGroup _ _)

theorem laneEnd (l i : Nat) : Spares T F s (Machine.laneEnd l i s) := by
  unfold Machine.laneEnd
  refine ite (condEnd _) ?_
  dsimp only
  split
  case h_6 => exact refl s
  all_goals exact groupEnd _ _

/-! ### The lane of an event (R80, R102, R104, R116, R145) -/

section Lane

variable (hl : ¬F l)
include hl

theorem loseLane : Spares T F s (Machine.loseLane l s) := by
  unfold Machine.loseLane
  dsimp only
  split
  · exact modLane hl _
  · exact (modLane hl _).trans (modPort _ _)

theorem gainLane : Spares T F s (Machine.gainLane l s) := by
  unfold Machine.gainLane
  dsimp only
  split
  · exact modLane hl _
  · exact (modLane hl _).trans (modPort _ _)

theorem cutLane (b : Nat) : Spares T F s (Machine.cutLane l b s) := (modLane hl _).trans (loseLane hl)

theorem uncutLane (b : Nat) : Spares T F s (Machine.uncutLane l b s) := thenIf (modLane hl _) (gainLane hl)

theorem dropLock : Spares T F s (Machine.dropLock l s) := (modLane hl _).trans (loseLane hl)

theorem laneTo (st : LaneState) : Spares T F s (Machine.laneTo st l s) := by
  unfold Machine.laneTo
  exact modLane hl _

end Lane

theorem readyCheck (l : Nat) : Spares T F s (Machine.readyCheck l s) := ite (modLtr _ _) (refl s)

theorem askPartner (l : Nat) (req : PartnerReq) : Spares T F s (Machine.askPartner l req s).2 := by
  unfold Machine.askPartner
  split
  · exact refl s
  · dsimp only
    split
    · exact refl s
    · split
      · exact refl s
      · split
        · dsimp only
          exact modLtr l _
        · exact refl s
      · split
        · exact refl s
        · dsimp only
          exact modLtr l _

/-! ### The commands of one lane (03) -/

theorem execAnchorMiss {l : Fin 64} (hl : ¬F l.val) : SparesRest T F s (Machine.execAnchorMiss l s) := ofLive fun v => by
  dsimp only
  split
  · exact refl v
  · exact modLane hl _
  · exact ite (modLane hl _) (ite ((dropLock hl).trans (cutLane hl _))
      (((dropLock hl).trans (cutLane hl _)).trans (laneRaise _ _)))

section LaneCommands

variable {l : LaneNo} (hl : ¬F l.val)
include hl

theorem execTxShort (legs : BitVec 2) (kind : Fin 4) : SparesRest T F s (Machine.execTxShort l legs kind s) :=
  ofLive fun v => ite (refl v) ((modLane hl _).trans (laneRaise _ _))

theorem execTxShortRetest (clean : Bool) : SparesRest T F s (Machine.execTxShortRetest l clean s) :=
  ofLive fun v => ite (refl v) (ite (modLane hl _) (thenIf (modLane hl _) (laneEnd _ _)))

theorem execRxLos : SparesRest T F s (Machine.execRxLos l s) :=
  ofLive fun v => ite (refl v) ((cutLane hl _).trans (laneRaise _ _))

theorem execRxLosEnd : SparesRest T F s (Machine.execRxLosEnd l s) :=
  ofLive fun _ => (uncutLane hl _).trans (laneEnd _ _)

theorem execCdrUnlock : SparesRest T F s (Machine.execCdrUnlock l s) :=
  ofLive fun v => ite (refl v) (((dropLock hl).trans (cutLane hl _)).trans (laneRaise _ _))

theorem execCdrLock : SparesRest T F s (Machine.execCdrLock l s) :=
  ofLive fun _ => ((modLane hl _).trans (uncutLane hl _)).trans (laneEnd _ _)

theorem execBlockLockLoss : SparesRest T F s (Machine.execBlockLockLoss l s) :=
  ofLive fun v => ite (refl v) (ite (cutLane hl _) ((cutLane hl _).trans (laneRaise _ _)))

theorem execBlockLockAcquired : SparesRest T F s (Machine.execBlockLockAcquired l s) :=
  ofLive fun _ => ((modLane hl _).trans (uncutLane hl _)).trans (laneEnd _ _)

theorem execBerIntervalEnd (samples : List (Fin 4 × Int)) : SparesRest T F s (Machine.execBerIntervalEnd l samples s) :=
  ofLive fun v => by
    have counted : ∀ f, Spares T F v (Machine.readyCheck l (v.modLane l f)) := fun f => (modLane hl f).trans (readyCheck _)
    exact ite (refl v) (ite (counted _) (ite ((counted _).trans (laneRaise _ _)) ((counted _).trans (laneEnd _ _))))

theorem execDspError : SparesRest T F s (Machine.execDspError l s) :=
  ofLive fun v => ite (refl v) (((dropLock hl).trans (cutLane hl _)).trans (laneRaise _ _))

theorem execAdaptationUpdate (pos ctle : Nat) (eq : EqTaps) (req : PartnerReq) :
    SparesRest T F s (Machine.execAdaptationUpdate l pos ctle eq req s) :=
  ofLive fun v => by
    have settled : ∀ f g, Spares T F v (Machine.readyCheck l (((Machine.askPartner l req v).2.modLane l f).modLtr l g)) :=
      fun f g => (((askPartner _ _).trans (modLane hl f)).trans (modLtr _ g)).trans (readyCheck _)
    exact ite (refl v) (ite (settled _ _) ((settled _ _).trans (laneRaise _ _)))

theorem execLaneDozeEntry : SparesRest T F s (Machine.execLaneDozeEntry l s) :=
  ofLive fun v => ite (laneTo hl _) (refl v)

theorem execLaneDozeExit : SparesRest T F s (Machine.execLaneDozeExit l s) :=
  ofLive fun v => ite (refl v) ((laneTo hl _).trans (modLane hl _))

end LaneCommands

/-! ### The train unit (09) -/

section Train

variable (hT : ¬T)
include hT

/-- A change of the train state leaves its entry, and the hold that follows from it is one of the paths (R345, R346). -/
theorem changeTrain (o : Origin) (who : Nat) (f : TrnSt → TrnSt) : Spares T F s (Machine.changeTrain o who f s) := by
  have changed : Spares T F s (if s.trn.bits = (s.modTrn f).trn.bits then s.modTrn f
      else (s.modTrn f).logEvent { kind := 0x17, origin := o, target := who, a := (s.modTrn f).trn.bits, b := s.trn.bits }) :=
    ite (modTrn hT f) ((modTrn hT f).trans (logEvent _))
  exact ite (each (fun _ _ => ofReacts (Reacts.enterSafe _ _ _ _)) changed)
    (ite (each (fun _ _ => ofReacts (Reacts.unhold _ _)) changed) changed)

theorem conflictSeen : Spares T F s (Machine.conflictSeen s) := ite (refl s) (thenIf (modTrn hT _) (raise _))

theorem newRound (page start : Nat) : Spares T F s (Machine.newRound page start s) := by
  unfold Machine.newRound
  exact (each (fun _ _ => modPeer hT _ _) (refl s)).trans (modTrn hT _)

theorem peerHeard (m : Nat) (pl : BitVec 168) : Spares T F s (Machine.peerHeard m pl s) :=
  thenIf (modPeer hT _ _) (condEnd _)

theorem comparePath (m n e : Nat) : Spares T F s (Machine.comparePath m n e s) :=
  ite (ite (modTrn hT _) (refl s)) (ite ((modTrn hT _).trans (modPeer hT _ _))
    (thenIf (modTrn hT _) ((modPeer hT _ _).trans (raise _))))

theorem comparePaths (m page body : Nat) : Spares T F s (Machine.comparePaths m page body s) :=
  ite (refl s) (each (fun _ _ => comparePath hT _ _ _) (refl s))

theorem masterSlot (t : Nat) (pl : BitVec 168) : Spares T F s (Machine.masterSlot t pl s) := by
  unfold Machine.masterSlot
  dsimp only
  refine thenIf (thenIf ?digest (ofReacts (Reacts.detect _ _ _ _ _))) (raise _)
  have round := newRound (F := F) (s := s) hT (pl.toNat / 2 ^ 160 % 4) (t - 285 * ns)
  have silent : ∀ (c : Prop) [Decidable c] f, Spares T F s
      (if c then Machine.condEnd (srcGlobal 12) (Machine.changeTrain (.trainPeer 0) 0 f (Machine.newRound _ _ s))
        else Machine.changeTrain (.trainPeer 0) 0 f (Machine.newRound _ _ s)) :=
    fun _ _ f => thenIf (round.trans (changeTrain hT _ _ f)) (condEnd _)
  exact ite ((silent _ _).trans (raise _)) (thenIf (silent _ _) (condEnd _))

theorem trainRx (t : Nat) (rx : TrainRx) : Spares T F s (Machine.trainRx t rx s) := by
  unfold Machine.trainRx
  refine ite (refl s) ?_
  dsimp only
  split
  case h_1 => exact thenIf (thenIf (modTrn hT _) (conflictSeen hT)) (raise _)
  case h_2 =>
    have polarity : ∀ (c : Prop) [Decidable c] f,
        Spares T F s ((if c then Machine.raise (srcGlobal 16) s else s).modTrn f) :=
      fun _ _ f => (ite (raise _) (refl s)).trans (modTrn hT f)
    refine ite (ite (polarity _ _) ((polarity _ _).trans (conflictSeen hT))) ?_
    exact thenIf ((thenIf (polarity _ _) (masterSlot hT _ _)).trans (peerHeard hT _ _)) (comparePaths hT _ _ _)

theorem sendSlot (readback : BitVec 400) : Spares T F s (Machine.sendSlot readback s) :=
  ite (refl s) (ite (modTrn hT _) ((modTrn hT _).trans (conflictSeen hT)))

theorem execTrainSlot (t : Nat) (rx : TrainRx) : SparesRest T F s (Machine.execTrainSlot t rx s) :=
  ofDone fun _ => (setNow t).trans (trainRx hT _ _)

theorem execTrainRoundStart (t : Nat) : SparesRest T F s (Machine.execTrainRoundStart t s) :=
  ofDone fun _ => thenIf (setNow t) ((newRound hT _ _).trans (modTrn hT _))

theorem execTrainSlotSend (t : Nat) (readback : BitVec 400) : SparesRest T F s (Machine.execTrainSlotSend t readback s) :=
  ofDone fun _ => (setNow t).trans (sendSlot hT _)

theorem execMasterSilent (t : Nat) : SparesRest T F s (Machine.execMasterSilent t s) := ofDone fun v => by
  dsimp only
  split
  · exact setNow t
  · exact thenIf (setNow t) (ite (changeTrain hT _ _ _) ((changeTrain hT _ _ _).trans (raise _)))

theorem execPeerAbsent (id : Fin 64) : SparesRest T F s (Machine.execPeerAbsent id s) :=
  ofDone fun v => ite (thenIf (modPeer hT _ _) (raise _)) (refl v)

end Train

/-! ### What the statements call these frames -/

theorem keepsProgram (h : Spares T F s u) : s.keepsProgram u := ⟨h.pending, h.regs, h.sched, h.stg⟩

theorem keepsUnits (h : Spares T F s u) : s.keepsUnits u := ⟨h.dom, h.quad, h.reel, h.sto, h.env⟩

/-- The fields that `BeatSt.kept` blanks are those that `keepsBeat` leaves open. -/
theorem keepsBeat (h : Spares T F s u) : s.keepsBeat u :=
  ⟨_, _, congrArg (fun b : BeatSt => { b with preNum := u.beat.preNum, preClk := u.beat.preClk }) h.beat⟩

/-- The fields that `LaneSt.kept` blanks are those that `keepsLanes` leaves open. -/
theorem keepsLanes (h : Spares T F s u) : s.keepsLanes u F := fun l hl =>
  let x := u.laneAt l
  ⟨_, _, _, _, _, congrArg (fun y : LaneSt =>
    { y with txIdle := x.txIdle, anchor := x.anchor, eligible := x.eligible, precTx := x.precTx, precRx := x.precRx })
    (h.lane l hl)⟩

theorem keepsMemory (h : Spares T F s u) : s.keepsMemory u := ⟨h.mem, h.code, h.data, h.patch⟩

end Spares

/-! ### Events of one lane and commands of the train unit -/

/-- An event of lane `l` spares the train unit and every lane but `l`. -/
theorem spares_of_laneOf {T : Prop} {F : Nat → Prop} {c : Instr} {l : Nat} {s u : State} (h : laneOf c = some l) (own : ¬F l)
    (e : exec c s = .next u) : Spares T F s u := by
  unfold laneOf at h
  split at h
  case h_1 => cases h; exact Spares.execAnchorMiss own u e
  case h_2 => cases h; exact Spares.execTxShort own _ _ u e
  case h_3 => cases h; exact Spares.execTxShortRetest own _ u e
  case h_4 => cases h; exact Spares.execRxLos own u e
  case h_5 => cases h; exact Spares.execRxLosEnd own u e
  case h_6 => cases h; exact Spares.execCdrUnlock own u e
  case h_7 => cases h; exact Spares.execCdrLock own u e
  case h_8 => cases h; exact Spares.execBlockLockLoss own u e
  case h_9 => cases h; exact Spares.execBlockLockAcquired own u e
  case h_10 => cases h; exact Spares.execBerIntervalEnd own _ u e
  case h_11 => cases h; exact Spares.execDspError own u e
  case h_12 => cases h; exact Spares.execAdaptationUpdate own _ _ _ _ u e
  case h_13 => cases h; exact Spares.execLaneDozeEntry own u e
  case h_14 => cases h; exact Spares.execLaneDozeExit own u e
  case h_15 => cases h

/-- A command of the train unit spares every lane; the train unit itself is its own. -/
theorem spares_of_ofTrain {c : Instr} {s u : State} (h : ofTrain c = true) (e : exec c s = .next u) :
    Spares False (fun _ => True) s u := by
  unfold ofTrain at h
  split at h
  case h_1 => exact Spares.execTrainSlot id _ _ u e
  case h_2 => exact Spares.execTrainRoundStart id _ u e
  case h_3 => exact Spares.execTrainSlotSend id _ _ u e
  case h_4 => exact Spares.execMasterSilent id _ u e
  case h_5 => exact Spares.execPeerAbsent id _ u e
  case h_6 => cases h

/-- Settles O55: every event is a chain of operations that spare the rest, and so is the settling at its end. -/
theorem laneAndTrainEventsSpareTheRest : Obligations.LaneAndTrainEventsSpareTheRest := by
  unfold Obligations.LaneAndTrainEventsSpareTheRest
  constructor
  · intro c l s u hc e
    have h : Spares True (fun k => k ≠ l) s u := spares_of_laneOf hc (fun other => other rfl) e
    exact ⟨h.keepsProgram, h.keepsUnits, h.trn trivial, h.keepsBeat, h.keepsLanes, h.keepsMemory⟩
  · intro c s u hc e
    have h := spares_of_ofTrain hc e
    exact ⟨h.keepsProgram, h.keepsUnits, h.keepsBeat, h.keepsLanes, h.keepsMemory⟩

/-! ### An uncorrectable error of patch RAM (R506) -/

/-- A part of the state that no round of `each` changes stands after it. -/
theorem each_keeps {α : Type} {g : State → α} {f : Nat → State → State} (h : ∀ n u, g (f n u) = g u) (l : List Nat) (s : State) :
    g (each l f s) = g s := by
  unfold each
  induction l generalizing s with
  | nil => rfl
  | cons n l ih => exact (ih _).trans (h n s)

/-- The firmware version returns to the image's patch level (R506): a write to the train unit. -/
theorem patchFail_fwVersion (s : State) : (patchFail s).trn.fwVersion = s.gon.imgVersion := by
  have entry : ∀ (r : LogReq) (v : State), (v.logEvent r).gon.imgVersion = v.gon.imgVersion :=
    fun r v => (congrArg GonSt.imgVersion (Reacts.logEvent (s := v) r).gon :)
  unfold patchFail
  dsimp only
  rw [(Reacts.raise _).trn]
  exact each_keeps (g := fun v => v.gon.imgVersion) (fun n v => entry (patchEntry .hardware n 0xFFFFFFFF) (v.modUnit n fun _ => {}))
    s.patchUnits s

theorem gonEcc_patchRam_fwVersion {a : Word} {s u : State} (hs : s.still = false)
    (e : exec (.gonEcc ⟨.patchRam, false, a⟩) s = .next u) : u.trn.fwVersion = s.gon.imgVersion := by
  have run : u = settle s (if s.still then s else patchFail s) := (Host.Outcome.next.inj e).symm
  rw [run, hs, (Reacts.settle s).trn]
  exact patchFail_fwVersion s

/-- A running device with a live patch of level 1 on an image of version 1.0 (R503, R504): patch unit 0 holds its word, and the
firmware version carries its level. -/
def patched : State :=
  { State.reset with
    pwr := { State.reset.pwr with por := false, steps := 0x7FF },
    trn := { State.reset.trn with fwVersion := 0x00010001 },
    gon := { State.reset.gon with
      fwReady := true, imgVersion := 0x00010000, unit := ({} : Tbl UnitSt).set {} 0 { enable := true } } }

/-- Refutes O54: an uncorrectable error of patch RAM, GON_ECC with `patchRam`, is one of the commands listed, and it takes the train
unit's firmware version from the patch level back to the image's (R506). -/
theorem not_monitorsAndAccessesSpareTheRest : ¬Obligations.MonitorsAndAccessesSpareTheRest := by
  unfold Obligations.MonitorsAndAccessesSpareTheRest
  intro h
  obtain ⟨u, e⟩ := exec_done (.gonEcc ⟨.patchRam, false, 0⟩) patched
  obtain ⟨-, -, htrn, -⟩ := h _ _ _ rfl e
  have image : patched.trn.fwVersion = patched.gon.imgVersion :=
    (congrArg TrnSt.fwVersion htrn).symm.trans (gonEcc_patchRam_fwVersion rfl e)
  exact absurd image (by decide)

end Sys2Proof.Machine
end

section
/-! The family "bridle_ports_paths": what a drop, a route tag mismatch and the phases of a transition leave (R165, R174, R176-R179).
`Carries` says once what the operations on links and lanes leave of every path; `Enters` adds the phase that a path is put in. -/

namespace Sys2Proof.Machine

variable {s t u : State}

/-! ### Entries that stand in the Logbook -/

/-- Reactions remove no entry from the ring. -/
theorem State.logged.reacts {kind target a b : Nat} {o : Origin} (h : s.logged kind o target a b) (r : Reacts s t) :
    t.logged kind o target a b := by
  obtain ⟨e, mem, content⟩ := h
  obtain ⟨⟨l, ring⟩, -, -⟩ := r.log
  exact ⟨e, ring ▸ List.mem_append_right l mem, content⟩

/-- An event without continuation entries that finds normal room stands in the ring (R411, R415). -/
theorem logEvent_logged {r : LogReq} (room : s.room 1 = true) (single : r.conts = []) :
    (s.logEvent r).logged r.kind r.origin r.target r.a r.b := by
  have fits : s.logRoom r = true := by
    unfold State.logRoom
    rw [single]
    exact Bool.or_eq_true_iff.mpr (.inl room)
  unfold State.logEvent
  rw [if_pos fits]
  exact ⟨_, List.mem_append_left _ (List.mem_reverse.mpr List.mem_cons_self), rfl, rfl, rfl, rfl, rfl⟩

/-! ### Position masks -/

theorem hasPos_eq_getLsbD (m : BitVec 18) (k : Nat) : hasPos m k = m.getLsbD k := rfl

theorem getLsbD_posBit {k : Nat} (hk : k < 18) (j : Nat) : (posBit k).getLsbD j = decide (k = j) := by
  unfold posBit
  rw [BitVec.getLsbD_ofNat, Nat.testBit_two_pow]
  by_cases e : k = j
  · simp [← e, hk]
  · simp [e]

theorem hasPos_or (a b : BitVec 18) (k : Nat) : hasPos (a ||| b) k = (hasPos a k || hasPos b k) := BitVec.getLsbD_or

theorem hasPos_posBit_self {k : Nat} (hk : k < 18) : hasPos (posBit k) k = true :=
  (getLsbD_posBit hk k).trans (decide_eq_true rfl)

theorem hasPos_posBit_ne {k j : Nat} (hk : k < 18) (h : k ≠ j) : hasPos (posBit k) j = false :=
  (getLsbD_posBit hk j).trans (decide_eq_false h)

/-- A position taken out of a mask is not in it. -/
theorem hasPos_without (m : BitVec 18) {k : Nat} (hk : k < 18) : hasPos (m &&& ~~~posBit k) k = false := by
  rw [hasPos_eq_getLsbD, BitVec.getLsbD_and, BitVec.getLsbD_not, getLsbD_posBit hk]
  simp

/-- The lowest position of a mask is one of its positions. -/
theorem hasPos_of_head {m : BitVec 18} {k : Nat} (h : (positions m).head? = some k) : k < 18 ∧ hasPos m k = true := by
  have mem := List.mem_of_head? h
  unfold positions at mem
  obtain ⟨range, bit⟩ := List.mem_filter.mp mem
  exact ⟨List.mem_range.mp range, bit⟩

/-! ### Drops and forced swaps (R165, R166, R170) -/

/-- A port after position `k` has left the active set and the pool (R165). -/
def PortSt.without (k : Nat) (p : PortSt) : PortSt :=
  { p with active := p.active &&& ~~~posBit k, pool := p.pool &&& ~~~posBit k, dropped := p.dropped ||| posBit k }

/-- A port after position `k` of its pool was brought in at an instant (R166). -/
def PortSt.broughtIn (k now : Nat) (p : PortSt) : PortSt :=
  { p with active := p.active ||| posBit k, pool := p.pool &&& ~~~posBit k, forced := p.forced.set none k (some now) }

/-- A position of the active set is dropped with its LANE entry (R165, R413). -/
theorem dropPos_of_active {ip pos : Nat} (other : Nat) (h : hasPos (s.portAt ip).active pos = true) :
    dropPos ip pos other s = (s.modPort ip (·.without pos)).logEvent (laneEntry .hardware (s.ipLane ip pos) ip 1 other 0) := by
  unfold dropPos
  exact if_pos h

/-- A forced swap brings in a position of the pool, or finds none and does nothing (R166). -/
theorem forcedSwap_cases (ip out : Nat) (s : State) :
    forcedSwap ip out s = (none, s) ∨
    ∃ k, k < 18 ∧ hasPos (s.portAt ip).pool k = true ∧ (forcedSwap ip out s).1 = some k ∧
      Reacts (s.modPort ip (·.broughtIn k s.now)) (forcedSwap ip out s).2 := by
  unfold forcedSwap
  cases lowest : (positions (s.portAt ip).pool).head? with
  | none => exact .inl rfl
  | some k =>
    obtain ⟨lt, pool⟩ := hasPos_of_head lowest
    refine .inr ⟨k, lt, pool, ?_⟩
    dsimp only
    split
    · exact ⟨rfl, Reacts.logEvent _⟩
    · exact ⟨rfl, (Reacts.logEvent _).trans (Reacts.raise _)⟩

/-- After a drop a position of the pool is brought in, or no position moves (R166, R170). -/
theorem replaceDropped_cases (ip out : Nat) (s : State) :
    Reacts s (replaceDropped ip out s).2 ∨
    ∃ k, k < 18 ∧ hasPos (s.portAt ip).pool k = true ∧ Reacts (s.modPort ip (·.broughtIn k s.now)) (replaceDropped ip out s).2 := by
  unfold replaceDropped
  split
  · exact .inl (Reacts.refl s)
  · rcases forcedSwap_cases ip out s with empty | ⟨k, lt, pool, swapped, reacts⟩
    · rw [empty]
      dsimp only
      split
      · exact .inl (Reacts.refl s)
      · exact .inl (Reacts.raise _)
    · refine .inr ⟨k, lt, pool, ?_⟩
      split
      next k' v e => exact (congrArg Prod.snd e : _ = v) ▸ reacts
      next v e => exact absurd (swapped.symm.trans (congrArg Prod.fst e)) nofun

/-- `t` is `s`, in which position `pos` of port `ip` is dropped, after the swap that the drop forces: the position stays out of the active
set, the dropped set and the SPARE messages stand, and no entry is lost. -/
structure StaysDropped (ip pos : Nat) (s t : State) : Prop where
  active : hasPos (t.portAt ip).active pos = false
  dropped : (t.portAt ip).dropped = (s.portAt ip).dropped
  spare : (t.portAt ip).spare = (s.portAt ip).spare
  logged : ∀ {kind target a b : Nat} {o : Origin}, s.logged kind o target a b → t.logged kind o target a b

theorem StaysDropped.thenReacts {ip pos : Nat} (h : StaysDropped ip pos s t) (r : Reacts t u) : StaysDropped ip pos s u where
  active := (congrArg (fun p : PortSt => hasPos p.active pos) (r.port ip) :).trans h.active
  dropped := (congrArg PortSt.dropped (r.port ip) :).trans h.dropped
  spare := (congrArg PortSt.spare (r.port ip) :).trans h.spare
  logged e := (h.logged e).reacts r

theorem StaysDropped.refl {ip pos : Nat} (h : hasPos (s.portAt ip).active pos = false) : StaysDropped ip pos s s :=
  ⟨h, rfl, rfl, id⟩

/-- A position of the pool is brought in: not the dropped one, which has left the pool. -/
theorem StaysDropped.broughtIn {ip pos k : Nat} (out : hasPos (s.portAt ip).active pos = false) (lt : k < 18) (ne : k ≠ pos) :
    StaysDropped ip pos s (s.modPort ip (·.broughtIn k s.now)) where
  active := by
    rw [State.portAt_modPort_self]
    exact (hasPos_or _ _ _).trans (by rw [out, hasPos_posBit_ne lt ne]; rfl)
  dropped := by rw [State.portAt_modPort_self]; rfl
  spare := by rw [State.portAt_modPort_self]; rfl
  logged := id

theorem replaceDropped_staysDropped {ip pos : Nat} (active : hasPos (s.portAt ip).active pos = false)
    (pool : hasPos (s.portAt ip).pool pos = false) : StaysDropped ip pos s (replaceDropped ip pos s).2 := by
  rcases replaceDropped_cases ip pos s with reacts | ⟨k, lt, inPool, reacts⟩
  · exact (StaysDropped.refl active).thenReacts reacts
  · have ne : k ≠ pos := fun e => Bool.false_ne_true (pool.symm.trans (e ▸ inPool))
    exact (StaysDropped.broughtIn active lt ne).thenReacts reacts

/-- What LANE_DROP does to the roles of port `ip`: position `pos` is dropped, and a spare is brought in where one is needed (R165,
R166, R170). Its LANE entry names the spare (DEDUCED, notes/assumptions/14.md). -/
def dropAndReplace (ip pos : Nat) (s : State) : State := (replaceDropped ip pos (dropPos ip pos (s.nextSpare ip pos) s)).2

/-- A position of the active set that is dropped, with room for its entry: it is out of the active set and in the dropped set, the
SPARE messages stand, and its LANE entry is in the ring. -/
theorem dropAndReplace_spec {ip pos : Nat} (lt : pos < 18) (active : hasPos (s.portAt ip).active pos = true)
    (room : s.room 1 = true) :
    hasPos ((dropAndReplace ip pos s).portAt ip).active pos = false ∧ hasPos ((dropAndReplace ip pos s).portAt ip).dropped pos = true ∧
    ((dropAndReplace ip pos s).portAt ip).spare = (s.portAt ip).spare ∧
    (dropAndReplace ip pos s).logged 0x0C .hardware (s.ipLane ip pos + 256 * ip) 1 (s.nextSpare ip pos) := by
  have drop := dropPos_of_active (s.nextSpare ip pos) active
  have entry := Reacts.logEvent (s := s.modPort ip (·.without pos)) (laneEntry .hardware (s.ipLane ip pos) ip 1 (s.nextSpare ip pos) 0)
  rw [← drop] at entry
  have port : ((dropPos ip pos (s.nextSpare ip pos) s).portAt ip).kept = ((s.portAt ip).without pos).kept := by
    rw [entry.port ip, State.portAt_modPort_self]
  have stays : StaysDropped ip pos (dropPos ip pos (s.nextSpare ip pos) s) (dropAndReplace ip pos s) :=
    replaceDropped_staysDropped ((congrArg (fun p : PortSt => hasPos p.active pos) port :).trans (hasPos_without _ lt))
      ((congrArg (fun p : PortSt => hasPos p.pool pos) port :).trans (hasPos_without _ lt))
  refine ⟨stays.active, ?_, stays.spare.trans (congrArg PortSt.spare port :), stays.logged ?_⟩
  · rw [stays.dropped]
    refine (congrArg (fun p : PortSt => hasPos p.dropped pos) port :).trans ((hasPos_or _ _ _).trans ?_)
    rw [hasPos_posBit_self lt, Bool.or_true]
  · rw [drop]
    exact logEvent_logged (r := laneEntry .hardware (s.ipLane ip pos) ip 1 (s.nextSpare ip pos) 0) room rfl

theorem dropPos_now {ip pos other : Nat} (active : hasPos (s.portAt ip).active pos = true) : (dropPos ip pos other s).now = s.now := by
  rw [dropPos_of_active other active]
  exact (Reacts.logEvent _).now

/-- A SPARE message joins those of port `ip` that wait for their answers (R216). -/
def queueSpare (ip : Nat) (m : SpareMsg) (s : State) : State := s.modPort ip (fun p => { p with spare := p.spare ++ [m] })

/-- With its message queued and the command settled, no role of a position has moved since. -/
theorem settle_queueSpare (before : State) (ip : Nat) (m : SpareMsg) (s : State) :
    ((settle before (queueSpare ip m s)).portAt ip).kept =
      { s.portAt ip with spare := (s.portAt ip).spare ++ [m] : PortSt }.kept := by
  unfold queueSpare
  rw [(Reacts.settle before).port ip, State.portAt_modPort_self]

/-- LANE_DROP for one of R165's reasons on a position of the active set: the drop, the swap that it forces, and a DROP message with the
reason that the model names first (DESIGN CHOICE, notes/assumptions/157.md). -/
theorem exec_laneDrop {t : Nat} {ip : PortNo} {pos : Fin 18} {lost ber short : Bool} {cause : Nat} (still : s.still = false)
    (up : (s.portAt ip.val).up = true) (active : hasPos (s.portAt ip.val).active pos.val = true)
    (code : dropCode (lost && !(s.laneAt (s.ipLane ip.val pos.val)).eligible) ber short = some cause) :
    ∃ m, exec (.laneDrop t ip pos lost ber short) s =
        .next (settle s (queueSpare ip.val m (dropAndReplace ip.val pos.val (s.at t)))) ∧
      m.op = 1 ∧ m.out = pos.val ∧ m.cause = cause ∧ m.since = max s.now t := by
  have run : exec (.laneDrop t ip pos lost ber short) s = execLaneDrop t ip pos lost ber short s := rfl
  have code' : dropCode (lost && !((s.at t).laneAt ((s.at t).ipLane ip.val pos.val)).eligible) ber short = some cause := code
  have up' : ((s.at t).portAt ip.val).up = true := up
  have active' : hasPos ((s.at t).portAt ip.val).active pos.val = true := active
  simp only [execLaneDrop, live, done, still, code', up', active', Bool.not_true, Bool.or_self, Bool.false_eq_true, if_false] at run
  exact ⟨_, run, rfl, rfl, rfl, dropPos_now active'⟩

/-- LANE_DROP completes (R165, R166, R216, R217). -/
theorem laneDrop_completes {t : Nat} {ip : PortNo} {pos : Fin 18} {lost ber short : Bool} {cause : Nat} (still : s.still = false)
    (up : (s.portAt ip.val).up = true) (active : hasPos (s.portAt ip.val).active pos.val = true)
    (code : dropCode (lost && !(s.laneAt (s.ipLane ip.val pos.val)).eligible) ber short = some cause) (room : s.room 1 = true) :
    completes (.laneDrop t ip pos lost ber short) s (fun u =>
      hasPos (u.portAt ip.val).active pos.val = false ∧ hasPos (u.portAt ip.val).dropped pos.val = true ∧
      (∃ m, (u.portAt ip.val).spare = (s.portAt ip.val).spare ++ [m] ∧ m.op = 1 ∧ m.out = pos.val ∧ m.cause = cause ∧
        m.since = max s.now t) ∧
      u.logged 0x0C .hardware (s.ipLane ip.val pos.val + 256 * ip.val) 1 (s.nextSpare ip.val pos.val)) := by
  obtain ⟨m, run, message⟩ := exec_laneDrop (t := t) still up active code
  obtain ⟨out, dropped, spare, logged⟩ := dropAndReplace_spec (s := s.at t) pos.isLt active room
  generalize dropAndReplace ip.val pos.val (s.at t) = r at *
  have port := settle_queueSpare s ip.val m r
  have queued : (queueSpare ip.val m r).logged 0x0C .hardware _ 1 _ := logged
  refine ⟨_, run, ?_, ?_, ⟨m, ?_, message⟩, queued.reacts (Reacts.settle s)⟩
  · exact (congrArg (fun p : PortSt => hasPos p.active pos.val) port :).trans out
  · exact (congrArg (fun p : PortSt => hasPos p.dropped pos.val) port :).trans dropped
  · exact (congrArg PortSt.spare port :).trans (congrArg (· ++ [m]) spare)

/-! ### Route tags (R173, R174) -/

/-- What an output expects names a path slot. -/
theorem tagExpected_lt {point : TagPoint} {n : Nat} {want : List (Option Nat)} (h : s.tagExpected point = some (n, want)) : n < 32 := by
  have found : ∀ {f : Nat → Bool} {o : Option Nat} {g : Nat → List (Option Nat)},
      o = paths.find? f → o.map (fun k => (k, g k)) = some (n, want) → n < 32 := by
    intro f o g find e
    obtain ⟨k, hk, pair⟩ := Option.map_eq_some_iff.mp e
    obtain ⟨rfl, -⟩ := Prod.mk.inj pair
    exact List.mem_range.mp (List.mem_of_find?_eq_some (find.symm.trans hk))
  cases point with
  | dLane d => exact found rfl h
  | engine ip => exact found rfl h
  | iLane ip pos => exact found rfl h
  | verdict pair pos =>
    obtain ⟨rfl, -⟩ := Prod.mk.inj (Option.some.inj h)
    exact pair.isLt
  | spool st =>
    obtain ⟨rfl, -⟩ := Prod.mk.inj (Option.some.inj h)
    exact Nat.mod_lt _ (by decide)

/-- A raising of an armed source of a path slot is a fresh one (R355, R358). -/
theorem raisedIn_raise {src : Nat} (ne : src ≠ 2158) (armed : s.armed src = true) : s.raisedIn src (raise src s) := by
  unfold State.armed at armed
  simp only [Bool.and_eq_true, Bool.not_eq_true', beq_iff_eq, decide_eq_true_eq] at armed
  obtain ⟨⟨⟨never, idle⟩, cond⟩, cls⟩ := armed
  exact srcAt_raiseD_idle ne 0 never idle cond (Nat.ne_of_gt cls)

/-- A source that two states agree on was raised in both or in neither. -/
theorem State.raisedIn.of_srcAt {src : Nat} (h : s.raisedIn src t) (e : u.srcAt src = t.srcAt src) : s.raisedIn src u := by
  unfold State.raisedIn
  rw [e]
  exact h

/-- ROUTE_TAG_MISMATCH completes (R173, R174): raising the received path as well spares the expected path's source. -/
theorem routeTagMismatch_completes {point : TagPoint} {rec copy : BitVec 16} {n : Nat} {want : List (Option Nat)}
    (still : s.still = false) (expected : s.tagExpected point = some (n, want))
    (mismatch : tagMatches want rec = false ∨ tagMatches want copy = false) (armed : s.armed (srcPath n 0) = true) :
    completes (.routeTagMismatch point ⟨rec, copy⟩) s (fun u => s.raisedIn (srcPath n 0) u) := by
  have slot := tagExpected_lt expected
  have path : srcPath n 0 < 1920 := by unfold srcPath; omega
  have both : (tagMatches want rec && tagMatches want copy) = false := by
    rcases mismatch with h | h <;> rw [h]
    · rfl
    · exact Bool.and_false _
  have run : exec (.routeTagMismatch point ⟨rec, copy⟩) s = execRouteTagMismatch point ⟨rec, copy⟩ s := rfl
  simp only [execRouteTagMismatch, live, done, still, expected, both, Bool.false_eq_true, if_false] at run
  have raised := raisedIn_raise (by omega) armed
  refine ⟨_, run, State.raisedIn.of_srcAt ?_
    (srcAt_settle s (by omega) (by omega) (by omega) (by omega))⟩
  split
  case isTrue other =>
    have ne : srcPath n 0 ≠ srcPath (rec.toNat / 2048) 0 := by
      have := other.2
      unfold srcPath
      omega
    exact raised.of_srcAt (srcAt_raise_ne ne (by omega))
  case isFalse => exact raised

/-! ### What operations on links and lanes leave of the paths -/

/-- Every path keeps its mode, and one without a transition stays without one. -/
structure Carries (s t : State) : Prop where
  mode : ∀ n, (t.pathAt n).mode = (s.pathAt n).mode
  idle : ∀ n, (s.pathAt n).trans = none → (t.pathAt n).trans = none

/-- The paths are carried from `s` to `t`, and path `n` is left in a phase (R176). -/
structure Enters (n : Nat) (ph : Phase) (s t : State) : Prop extends Carries s t where
  phase : (t.pathAt n).phase = ph

namespace Carries

/-! ### Composition -/

theorem refl (s : State) : Carries s s := ⟨fun _ => rfl, fun _ => id⟩

theorem trans (h : Carries s t) (g : Carries t u) : Carries s u :=
  ⟨fun n => (g.mode n).trans (h.mode n), fun n => g.idle n ∘ h.idle n⟩

theorem ite {c : Prop} [Decidable c] {a b : State} (h : Carries s a) (g : Carries s b) : Carries s (if c then a else b) := by
  split
  · exact h
  · exact g

theorem each {l : List Nat} {f : Nat → State → State} (h : ∀ n u, Carries u (f n u)) (g : Carries s t) :
    Carries s (Machine.each l f t) := by
  unfold Machine.each
  induction l generalizing t with
  | nil => exact g
  | cons n l ih => exact ih (g.trans (h n t))

theorem ofReacts (h : Reacts s t) : Carries s t where
  mode n := (congrArg PathSt.mode (h.path n) :)
  idle n e := (congrArg PathSt.trans (h.path n) :).trans e

/-- A change of other parts of the state. -/
theorem ofPath (h : t.path = s.path) : Carries s t where
  mode n := by unfold State.pathAt; rw [h]
  idle n e := by unfold State.pathAt at e ⊢; rwa [h]

/-- A change of one path. -/
theorem modPath (n : Nat) (f : PathSt → PathSt) (mode : ∀ p, (f p).mode = p.mode)
    (idle : ∀ p, p.trans = none → (f p).trans = none) : Carries s (s.modPath n f) where
  mode k := by
    rw [State.pathAt_modPath]
    split
    case isTrue e => rw [mode, e]
    case isFalse => rfl
  idle k e := by
    rw [State.pathAt_modPath]
    split
    case isTrue same => exact idle _ (same ▸ e)
    case isFalse => exact e

theorem toPhase (n : Nat) (ph : Phase) : Carries s (s.modPath n (·.toPhase ph)) :=
  modPath n _ (fun p => by unfold PathSt.toPhase; split <;> rfl) (fun p e => by unfold PathSt.toPhase; split <;> exact e)

/-! ### Lanes (R87, R92, R97, R104) -/

theorem modLane (l : Nat) (f : LaneSt → LaneSt) : Carries s (s.modLane l f) := ofPath rfl

theorem modLtr (l : Nat) (f : LaneTr → LaneTr) : Carries s (s.modLtr l f) := ofPath rfl

theorem laneTo (st : LaneState) (l : Nat) : Carries s (Machine.laneTo st l s) := by
  unfold Machine.laneTo
  exact modLane _ _

theorem retap (l : Nat) : Carries s (Machine.retap l s) :=
  ite (modLane _ _) (ofReacts (Reacts.ite (Reacts.raise _) (Reacts.raiseGroup _ _)))

theorem fixTaps (ls : List Nat) : Carries s (Machine.fixTaps ls s) := each (fun l u => ite (retap l) (refl u)) (refl s)

theorem transmit (ls : List Nat) : Carries s (Machine.transmit ls s) := each (fun _ _ => modLane _ _) (refl s)

theorem retrainLanes (ls : List Nat) (opened : Bool) : Carries s (Machine.retrainLanes ls opened s) :=
  each (fun _ _ => (modLane _ _).trans (modLtr _ _)) (refl s)

theorem openTerm (ls : List Nat) : Carries s (Machine.openTerm ls s) := each (fun _ _ => modLtr _ _) (refl s)

/-! ### Links and tunnels (R31, R32, R148, R177, R215, R235) -/

theorem modPort (ip : Nat) (f : PortSt → PortSt) : Carries s (s.modPort ip f) := ofPath rfl

theorem modLink (ip : Nat) (f : LinkSt → LinkSt) : Carries s (s.modLink ip f) := modPort _ _

theorem logEvent (r : LogReq) : Carries s (s.logEvent r) := ofReacts (Reacts.logEvent r)

theorem sendFault (n : Nat) (r : FaultRep) : Carries s (s.sendFault n r) := ofReacts (Reacts.sendFault n r)

theorem numberWaiting (ip : Nat) (f : TxFlit → Bool) : Carries s (Machine.numberWaiting ip f s) := modLink _ _

theorem reportLink (ip : Nat) : Carries s (Machine.reportLink ip s) := by
  unfold Machine.reportLink
  split
  · exact refl s
  · have cells : ∀ (a b : Option RxCell) (f : RxCell → RxCell → LogReq),
        Carries s (match a, b with | some x, some y => s.logEvent (f x y) | _, _ => s) := by
      intro a b f
      split
      · exact logEvent _
      · exact refl s
    dsimp only
    split
    · exact (cells _ _ _).trans (logEvent _)
    · exact cells _ _ _

theorem linkEnd (ip : Nat) : Carries s (Machine.linkEnd ip s) := by
  unfold Machine.linkEnd
  exact ((numberWaiting _ _).trans (reportLink _)).trans (modPort _ _)

theorem startLadder (ip : Nat) : Carries s (Machine.startLadder ip s) := by
  unfold Machine.startLadder
  refine Carries.trans (each (fun _ _ => ?_) ((modPort _ _).trans (retrainLanes _ _))) (ofPath rfl)
  exact ((modLtr _ _).trans (laneTo _ _)).trans (modLane _ _)

theorem startTunnel (n : Nat) : Carries s (Machine.startTunnel n s) := ofPath rfl

theorem stopTunnel (n : Nat) : Carries s (Machine.stopTunnel n s) := by
  unfold Machine.stopTunnel
  refine Carries.trans ?_ (modLink _ _)
  refine Carries.trans ?_ (modPath n _ (fun _ => rfl) (fun _ => id))
  exact ofReacts (Reacts.reportRun _ _)

theorem reportUnres (n src : Nat) : Carries s (Machine.reportUnres n src s) := by
  unfold Machine.reportUnres
  dsimp only
  split
  · exact ((modLink _ _).trans (sendFault _ _)).trans (logEvent _)
  · exact refl s

theorem reportUnplayed (n src : Nat) : Carries s (Machine.reportUnplayed n src s) :=
  ofReacts (Reacts.ite (Reacts.refl s) (Reacts.reportCells _ _))

/-! ### Sides of a path (R87, R114, R128, R176, R177) -/

theorem startD (n : Nat) : Carries s (Machine.startD n s) := by
  unfold Machine.startD
  dsimp only
  have sends : ∀ v, Carries s v → Carries s (if (v.pathAt n).mode.guardFam && v.dpFamily (v.pathD n) == 1 then
      v.sendCtrl n 1 (v.eventNow n 6 0 0) else v) := fun v h => ite (h.trans (ofReacts (Reacts.sendFlit _ _))) h
  refine sends _ (Carries.trans ?_ (modPath n _ (fun _ => rfl) (fun _ => id)))
  exact ((each (fun l _ => laneTo .run l) (retrainLanes _ _)).trans (transmit _)).trans (fixTaps _)

theorem startFill (n : Nat) : Carries s (Machine.startFill n s) := by
  unfold Machine.startFill
  refine Carries.trans ?_ (modPath n _ (fun _ => rfl) (fun _ => id))
  exact ((each (fun l _ => (laneTo .run l).trans (modLtr _ _)) (refl s)).trans (transmit _)).trans (fixTaps _)

theorem fillSites (n : Nat) (all : Bool) : Carries s (Machine.fillSites n all s) := each (fun m _ => startFill m) (startFill n)

theorem idleD (n : Nat) : Carries s (Machine.idleD n s) := by
  unfold Machine.idleD
  exact (each (fun _ _ => modLane _ _) (refl s)).trans (modPath n _ (fun _ => rfl) (fun _ => id))

theorem darkD (n : Nat) : Carries s (Machine.darkD n s) := by
  unfold Machine.darkD
  exact (idleD n).trans (openTerm _)

theorem darkI (n : Nat) : Carries s (Machine.darkI n s) := by
  unfold Machine.darkI
  refine Carries.trans ?_ (modPath n _ (fun _ => rfl) (fun _ => id))
  exact ((each (fun _ _ => modLane _ _) (refl s)).trans (openTerm _)).trans (linkEnd _)

end Carries

/-! ### The phases that operations end in (R176, R177) -/

namespace Enters

variable {n : Nat} {ph : Phase}

theorem after (h : Carries s t) (g : Enters n ph t u) : Enters n ph s u := { h.trans g.toCarries with phase := g.phase }

theorem thenReacts (h : Enters n ph s t) (r : Reacts t u) : Enters n ph s u :=
  { h.toCarries.trans (Carries.ofReacts r) with phase := (congrArg PathSt.phase (r.path n) :).trans h.phase }

theorem quietPhase (n : Nat) (ph : Phase) : Enters n ph s (Machine.quietPhase n ph s) :=
  { Carries.toPhase n ph with
    phase := by
      unfold Machine.quietPhase PathSt.toPhase
      rw [State.pathAt_modPath_self]
      split <;> rfl }

theorem setPhase (o : Origin) (cause n : Nat) (ph : Phase) : Enters n ph s (Machine.setPhase o cause n ph s) :=
  (quietPhase n ph).thenReacts (Reacts.logEvent _)

theorem enterDark (both : Bool) (n : Nat) : Enters n .dark s (Machine.enterDark both n s) := by
  unfold Machine.enterDark
  refine after ?_ (quietPhase n .dark)
  refine Carries.trans (.trans ?_ (.darkD n)) (.modPath n _ (fun _ => rfl) (fun _ e => ?_))
  · exact .ite (.darkI n) (.refl s)
  · exact congrArg (Option.map _) e

theorem moor (n : Nat) : Enters n .steady s (Machine.moor n s) := by
  unfold Machine.moor
  dsimp only
  refine after ?_ (quietPhase n .steady)
  refine Carries.trans ?_ (.modPath n _ ?_ ?_)
  case refine_2 => exact fun _ => rfl
  case refine_3 => exact fun _ _ => rfl
  refine .each (fun l _ => (Carries.laneTo .moored l).trans (.modLtr _ _)) ?_
  exact .ite ((Carries.stopTunnel n).trans (.linkEnd _)) (.refl s)

theorem tunnelAndTrain (o : Origin) (cause n : Nat) : Enters n .train s (Machine.tunnelAndTrain o cause n s) := by
  unfold Machine.tunnelAndTrain
  exact after ((Carries.startTunnel n).trans (.startD n)) (setPhase o cause n .train)

end Enters

/-! ### The end of DRAIN (R179, R407) -/

/-- DRAIN of a path in a transition ends in DARK (R177, R407). -/
theorem drainEnd_enters {n : Nat} {tr : Trans} (h : (s.pathAt n).trans = some tr) : Enters n .dark s (drainEnd n s) := by
  have reported : Carries s (stopTunnel n (reportUnplayed n (srcGlobal 84)
      (reportUnres n (srcGlobal 84) (numberWaiting (s.pathI n) (fun f => f.typ == 1) s)))) :=
    (((Carries.numberWaiting _ _).trans (.reportUnres _ _)).trans (.reportUnplayed _ _)).trans (.stopTunnel _)
  unfold drainEnd
  rw [h]
  dsimp only
  refine Enters.thenReacts ?_ (Reacts.logEvent _)
  split
  · exact .after reported (.enterDark _ _)
  · split
    · exact .after (reported.trans (.idleD n)) (.quietPhase n .dark)
    · exact .after reported (.enterDark _ _)

/-- DRAIN_END completes (R179, R407). -/
theorem drainEnd_completes {t : Nat} {p : PathNo} (still : s.still = false) (phase : (s.pathAt p.val).phase = .drain)
    (safe : (s.pathAt p.val).safe = false) (drained : (s.at t).drained p.val = true) :
    completes (.drainEnd t p) s
      (fun u => (u.pathAt p.val).phase = .dark ∧ (u.pathAt p.val).mode = (s.pathAt p.val).mode) := by
  have ready : (((s.at t).pathAt p.val).phase == .drain && !((s.at t).pathAt p.val).safe && (s.at t).drained p.val) = true := by
    rw [drained, show ((s.at t).pathAt p.val).phase = .drain from phase, show ((s.at t).pathAt p.val).safe = false from safe]
    rfl
  obtain ⟨tr, trans⟩ : ∃ tr, ((s.at t).pathAt p.val).trans = some tr := by
    unfold State.drained at drained
    cases h : ((s.at t).pathAt p.val).trans with
    | none => rw [h] at drained; exact absurd drained Bool.false_ne_true
    | some tr => exact ⟨tr, rfl⟩
  have run : exec (.drainEnd t p) s = execDrainEnd t p s := rfl
  simp only [execDrainEnd, live, done, still, ready, if_true, Bool.false_eq_true, if_false] at run
  have dark := (drainEnd_enters trans).thenReacts (Reacts.settle s)
  exact ⟨_, run, dark.phase, dark.mode p.val⟩

/-! ### Phase 2 (R105, R177, R178, R407) -/

/-- Path `n` as phase 2 begins: its new configuration in force, its transition over (R178, R408). -/
def begun (n : Nat) (s : State) : State := (freshen n s).modPath n (fun p => { p with trans := none })

theorem begun_mode (n : Nat) (s : State) : ((begun n s).pathAt n).mode = (s.pathAt n).mode := by
  unfold begun
  rw [State.pathAt_modPath_self]
  rfl

theorem begun_trans (n : Nat) (s : State) : ((begun n s).pathAt n).trans = none := by
  unfold begun
  rw [State.pathAt_modPath_self]

/-- The phase that the bring-up of a path with its own I port begins in, from the dark state (R112, R177). -/
def bringUpPhase : Mode → Phase
  | .moored | .survey => .steady
  | .pass => .train
  | .guard | .observe | .verdict | .drive | .fanOut => .ladder

/-- A path as its bring-up begins: nothing of an earlier training holds. -/
def PathSt.untrained (p : PathSt) : PathSt :=
  { p with miscI := false, miscD := false, ladStop := false, upPend := false, iTrain := 0, dTrain := 0, timeline := none }

theorem Carries.untrained (n : Nat) : Carries s ((freshen n s).modPath n (·.untrained)) :=
  (ofPath rfl : Carries s (freshen n s)).trans (modPath n _ (fun _ => rfl) (fun _ => id))

/-- The bring-up of a path with its own I port in a mode with a link starts the ladder (R112, R114). -/
theorem bringUp_of_family {n : Nat} (o : Origin) (cause : Nat) (en : s.pathEn n = true) (lead : s.pathLead n = n)
    (family : (s.pathAt n).mode.family = true) :
    ∃ v, Carries s v ∧ bringUp o cause n s = setPhase o cause n .ladder (startLadder (s.pathI n) v) := by
  refine ⟨((freshen n s).modPath n (·.untrained)).modPath n (fun p => { p with iTrain := 1 }),
    (Carries.untrained n).trans (.modPath n _ (fun _ => rfl) (fun _ => id)), ?_⟩
  have lead' : ((freshen n s).modPath n (·.untrained)).pathLead n = n := lead
  simp only [bringUp, en, Bool.not_true, Bool.false_eq_true, if_false]
  generalize mode : (s.pathAt n).mode = m at family ⊢
  cases m with
  | moored | pass | survey => exact absurd family Bool.false_ne_true
  | guard | observe | verdict | drive | fanOut => exact if_pos lead'

/-- A bring-up of a path with its own I port, by mode (R112, R177). -/
theorem bringUp_enters {n : Nat} (o : Origin) (cause : Nat) (en : s.pathEn n = true) (lead : s.pathLead n = n) :
    Enters n (bringUpPhase (s.pathAt n).mode) s (bringUp o cause n s) := by
  have start := Carries.untrained (s := s) n
  have family (h : (s.pathAt n).mode.family = true) : Enters n .ladder s (bringUp o cause n s) := by
    obtain ⟨v, carries, run⟩ := bringUp_of_family o cause en lead h
    rw [run]
    exact .after (carries.trans (.startLadder _)) (.setPhase o cause n .ladder)
  cases mode : (s.pathAt n).mode with
  | guard | observe | verdict | drive | fanOut => exact family (by rw [mode]; rfl)
  | moored =>
    simp only [bringUp, en, mode, Bool.not_true, Bool.false_eq_true, if_false]
    refine .after ?_ (.setPhase o cause n .steady)
    exact .each (fun l _ => .laneTo .moored l) (start.trans (.ite (.linkEnd _) (.refl _)))
  | pass =>
    simp only [bringUp, en, mode, Bool.not_true, Bool.false_eq_true, if_false]
    refine .after ?_ (.setPhase o cause n .train)
    refine .trans ?_ (.modPath n _ (fun _ => rfl) (fun _ => id))
    refine .trans (.trans (.each (fun l _ => .laneTo .run l) (.trans ?_ (.retrainLanes _ _))) (.transmit _)) (.fixTaps _)
    exact (start.trans (.linkEnd _)).trans (.startD n)
  | survey =>
    simp only [bringUp, en, mode, Bool.not_true, Bool.false_eq_true, if_false]
    refine .after ?_ (.setPhase o cause n .steady)
    refine .trans (.each (fun l _ => .laneTo .run l) ?_) (.transmit _)
    exact ((start.trans (.linkEnd _)).trans (.retrainLanes _ _)).trans (.startFill n)

/-- The phase that phase 2 puts a path in, by its mode and whether its link stands (R177). -/
def phase2Phase (m : Mode) (up : Bool) : Phase :=
  match m with
  | .moored | .survey => .steady
  | .pass => .train
  | .drive | .fanOut => if up then .steady else .ladder
  | .guard | .observe | .verdict => if up then .train else .ladder

section Phase2

variable {n : Nat} {tr : Trans} (trans : (s.pathAt n).trans = some tr) (en : s.pathEn n = true) (lead : s.pathLead n = n)
include trans

/-- Without a standing link, phase 2 of a path in a mode with one is its bring-up (R177). -/
theorem phase2_of_down (family : (s.pathAt n).mode.family = true) (down : (s.portAt (s.pathI n)).up = false) :
    phase2 n s = bringUp .hardware (if tr.retrain then 1 else 0) n (begun n s) := by
  simp only [phase2, trans, down, Bool.false_eq_true, if_false]
  generalize (s.pathAt n).mode = m at family ⊢
  cases m with
  | moored | pass | survey => exact absurd family Bool.false_ne_true
  | guard | observe | verdict | drive | fanOut => rfl

include en lead

/-- Once its transition is over, phase 2 puts a path with its own I port in the phase of R177. -/
theorem phase2_enters :
    Enters n (phase2Phase (s.pathAt n).mode (s.portAt (s.pathI n)).up) (begun n s) (phase2 n s) := by
  have bringUp : Enters n (bringUpPhase (s.pathAt n).mode) (begun n s)
      (Machine.bringUp .hardware (if tr.retrain then 1 else 0) n (begun n s)) := by
    rw [← begun_mode n s]
    exact bringUp_enters (s := begun n s) .hardware _ en lead
  have down (family : (s.pathAt n).mode.family = true) (up : (s.portAt (s.pathI n)).up = false) :
      Enters n (bringUpPhase (s.pathAt n).mode) (begun n s) (phase2 n s) := by
    rw [phase2_of_down trans family up]
    exact bringUp
  cases mode : (s.pathAt n).mode with
  | moored =>
    simp only [phase2, trans, mode]
    exact (Enters.moor n).thenReacts (Reacts.logEvent _)
  | survey | pass =>
    rw [mode] at bringUp
    simp only [phase2, trans, mode]
    exact bringUp
  | drive | fanOut =>
    rw [mode] at down
    cases up : (s.portAt (s.pathI n)).up with
    | false => exact down rfl up
    | true =>
      simp only [phase2, trans, mode, up, if_true]
      have pattern := Carries.modPath (s := begun n s) n (fun p => { p with retrain := false }) (fun _ => rfl) (fun _ => id)
      exact .after (pattern.trans (.fillSites n _)) (.setPhase .hardware _ n .steady)
  | guard | observe | verdict =>
    rw [mode] at down
    cases up : (s.portAt (s.pathI n)).up with
    | false => exact down rfl up
    | true =>
      simp only [phase2, trans, mode, up, if_true]
      exact .tunnelAndTrain .hardware _ n

end Phase2

theorem laneTo_port (st : LaneState) (l : Nat) (s : State) : (laneTo st l s).port = s.port := by
  unfold laneTo
  exact State.modLane_port _ _ _

/-- The ladder starts at step 1 (R148). -/
theorem startLadder_step (ip : Nat) (s : State) : ((startLadder ip s).portAt ip).lad.step = 1 := by
  unfold startLadder retrainLanes State.portAt
  rw [State.modMb_port, each_keeps (g := State.port) ?_, each_keeps (g := State.port) ?_]
  · rw [← State.portAt, State.portAt_modPort_self]
  · exact fun _ _ => State.modLtr_port _ _ _
  · exact fun l u => laneTo_port .run l _

/-- Entering a phase moves no port's roles or ladder step. -/
theorem portAt_setPhase_kept (o : Origin) (cause n : Nat) (ph : Phase) (ip : Nat) :
    ((setPhase o cause n ph s).portAt ip).kept = (s.portAt ip).kept := (Reacts.logEvent _).port ip

/-- Phase 2 begins at a later beat edge in LOCKED, after the dark time (R15, R178). -/
theorem exec_phase2Start {t : Nat} {p : PathNo} {tr : Trans} (still : s.still = false)
    (phase : (s.pathAt p.val).phase = .dark) (trans : (s.pathAt p.val).trans = some tr)
    (safe : (s.pathAt p.val).safe = false) (locked : s.beat.st = .locked) (edge : max s.now t = s.beat.edge)
    (later : tr.fireAt < s.beat.edge) (dark : ∀ d, tr.darkAt = some d → d + us * s.darkMin p.val ≤ s.beat.edge)
    (fatal : s.pwr.fatal = false) : exec (.phase2Start t p) s = .next (settle s (phase2 p.val (s.at t))) := by
  have run : exec (.phase2Start t p) s = execPhase2Start t p s := rfl
  have q : (s.at t).pathAt p.val = s.pathAt p.val := rfl
  have now : (s.at t).now = s.beat.edge := edge
  have wait : (s.at t).darkMin p.val = s.darkMin p.val := rfl
  rw [run]
  cases begins : tr.darkAt with
  | none => simp [execPhase2Start, live, done, still, q, now, phase, trans, safe, locked, later, fatal, begins]
  | some d =>
    have waited := dark d begins
    simp [execPhase2Start, live, done, still, q, now, wait, phase, trans, safe, locked, later, fatal, begins, waited]

/-- PHASE_2_START completes (R105, R177, R178, R407). -/
theorem phase2Start_completes {t : Nat} {p : PathNo} {tr : Trans} (still : s.still = false) (en : s.pathEn p.val = true)
    (lead : s.pathLead p.val = p.val) (phase : (s.pathAt p.val).phase = .dark) (trans : (s.pathAt p.val).trans = some tr)
    (safe : (s.pathAt p.val).safe = false) (locked : s.beat.st = .locked) (edge : max s.now t = s.beat.edge)
    (later : tr.fireAt < s.beat.edge) (dark : ∀ d, tr.darkAt = some d → d + us * s.darkMin p.val ≤ s.beat.edge)
    (fatal : s.pwr.fatal = false) :
    completes (.phase2Start t p) s (fun u => (u.pathAt p.val).trans = none ∧
      (u.pathAt p.val).phase = phase2Phase (s.pathAt p.val).mode (s.portAt (s.pathI p.val)).up ∧
      ((s.pathAt p.val).mode.family = true → (s.portAt (s.pathI p.val)).up = false →
        (u.portAt (s.pathI p.val)).lad.step = 1)) := by
  have entered := (phase2_enters (s := s.at t) trans en lead).thenReacts (Reacts.settle s)
  refine ⟨_, exec_phase2Start still phase trans safe locked edge later dark fatal, entered.idle p.val (begun_trans p.val _),
    entered.phase, fun family down => ?_⟩
  have mode : ((begun p.val (s.at t)).pathAt p.val).mode.family = true := (congrArg Mode.family (begun_mode p.val _)).trans family
  obtain ⟨v, -, ladder⟩ := bringUp_of_family (s := begun p.val (s.at t)) .hardware (if tr.retrain then 1 else 0) en lead mode
  rw [phase2_of_down (s := s.at t) trans family down, ladder]
  refine (congrArg (fun p : PortSt => p.lad.step) ((Reacts.settle s).port _) :).trans ?_
  refine (congrArg (fun p : PortSt => p.lad.step) (portAt_setPhase_kept .hardware _ _ .ladder _) :).trans ?_
  exact startLadder_step _ v

/-- Settles O25: each of the four commands is traced to its effect, a drop with its forced swap, a fresh raising, or operations that
carry every path and put this one in a phase; the settling at its end undoes none of it. -/
theorem dropsAndPhasesComplete : Obligations.DropsAndPhasesComplete := by
  unfold Obligations.DropsAndPhasesComplete
  refine ⟨?_, ?_, ?_, ?_⟩
  · intro t ip pos lost ber short cause s still up active code room
    exact laneDrop_completes still up active code room
  · intro point rec copy n want s still expected mismatch armed
    exact routeTagMismatch_completes still expected mismatch armed
  · intro t p s still phase safe drained
    exact drainEnd_completes still phase safe drained
  · intro t p tr s still en lead phase trans safe locked edge later dark fatal
    exact phase2Start_completes still en lead phase trans safe locked edge later dark fatal

end Sys2Proof.Machine
end

section
/-! The family "qormos_link_and_reel": what a received flit leaves before it takes effect (`Arrival`, R191-R200), and what the link's
messages and timers do then (R193-R241). -/

namespace Sys2Proof.Machine

variable {s t u v : State}

/-! ### Commands of a running device -/

/-- On a running device a command's effect is settled. -/
theorem live_of_running {f : State → State} (still : s.still = false) : live f s = .next (settle s (f s)) := by
  simp only [live, done, still, Bool.false_eq_true, if_false]

/-- A link is one of a path slot. -/
theorem linkPath_lt {ip n : Nat} (h : s.linkPath ip = some n) : n < 32 := by
  unfold State.linkPath State.pathOfI at h
  split at h
  · exact List.mem_range.mp (List.mem_of_find?_eq_some h)
  · cases h

/-- With nothing due in the Logbook and at the quiet detector, the settling of a command moves no port and no path (R410, R418). -/
theorem settle_of_calm (before : State) (calm : s.calm = true) :
    (settle before s).port = s.port ∧ (settle before s).path = s.path := by
  unfold State.calm at calm
  simp only [Bool.and_eq_true, Bool.not_eq_true', decide_eq_true_eq] at calm
  obtain ⟨⟨⟨⟨quiet, lost⟩, reserve⟩, mirror⟩, sealing⟩ := calm
  have noQuiet : settleQuiet s = s := by simp [settleQuiet, quiet]
  have noLost : settleLost s = s := by simp [settleLost, lost]
  have noLog : settleLog s = { s with log := { s.log with mirrorLate := false } } := by
    have room : ¬ringSize - ringReserve < s.log.used := by unfold ringSize ringReserve; omega
    have near : ¬16384 < s.log.used := by omega
    simp [settleLog, reserve, room, near]
  have noSeal : ∀ f, sealDue f { s with log := { s.log with mirrorLate := false } } =
      { s with log := { s.log with mirrorLate := false } } := by
    intro f
    have below : s.log.used < s.log.recorded + 125 := by omega
    cases f with
    | zero => rfl
    | succ f => exact if_pos below
  have sealed : settleSeal { s with log := { s.log with mirrorLate := false } } = { s with log := { s.log with mirrorLate := false } } := by
    unfold settleSeal
    rw [noSeal, ite_self]
  unfold settle
  rw [noQuiet, noLost, noLog, sealed]
  unfold settlePins
  dsimp only
  split <;> exact ⟨rfl, rfl⟩

/-- What reactions never write of a port stands through them. -/
theorem Reacts.portAt {α : Type} (r : Reacts s t) (ip : Nat) (g : PortSt → α) (kept : ∀ p, g p.kept = g p) :
    g (t.portAt ip) = g (s.portAt ip) := by
  rw [← kept, r.port ip, kept]

theorem settle_portAt {α : Type} (before : State) (ip : Nat) (g : PortSt → α) (kept : ∀ p, g p.kept = g p) (s : State) :
    g ((settle before s).portAt ip) = g (s.portAt ip) := (Reacts.settle before).portAt ip g kept

/-! ### The receiver of a link with nothing pending (R200, R208) -/

/-- Nothing that arrived before on port `ip` waits for a decision, and no Fatal flush has ended. -/
structure Unburdened (ip : Nat) (s : State) : Prop where
  cells : (s.portAt ip).link.cells = []
  got : (s.portAt ip).link.got = []
  refuse : (s.portAt ip).link.refuse = []
  flush : s.pwr.fatalDone = false

theorem Unburdened.of_eq {ip : Nat} (h : Unburdened ip s) (cells : (t.portAt ip).link.cells = (s.portAt ip).link.cells)
    (got : (t.portAt ip).link.got = (s.portAt ip).link.got) (refuse : (t.portAt ip).link.refuse = (s.portAt ip).link.refuse)
    (pwr : t.pwr = s.pwr) : Unburdened ip t :=
  ⟨cells.trans h.cells, got.trans h.got, refuse.trans h.refuse, (congrArg PwrSt.fatalDone pwr).trans h.flush⟩

/-- A link as an acknowledgement up to `a` leaves it (R200). -/
def LinkSt.acked (a : Seq) (l : LinkSt) : LinkSt :=
  { l with
    peerAck := if seqBefore a l.peerAck then l.peerAck else a
    unres := if seqBefore a l.peerAck then l.unres else l.unres.filter (fun f => !seqUpTo f.seq a)
    peerRefused := if seqBefore a l.peerAck then l.peerRefused else l.peerRefused.filter (fun r => !seqUpTo r.2 a) }

theorem settleRx_of_unburdened {ip : Nat} (n : Nat) (h : Unburdened ip s) : settleRx ip n s = s := by
  simp [settleRx, advance, pump, h.cells, h.got, h.refuse]

theorem fatalPort_of_noFlush (ip : Nat) (h : s.pwr.fatalDone = false) : fatalPort ip s = s := by
  simp [fatalPort, h]

/-- An acknowledgement changes the link of its port alone (R200). -/
theorem takeAck_of_unburdened {ip : Nat} (n : Nat) (a : Seq) (h : Unburdened ip s) :
    (∃ port, takeAck ip n a s = { s with port := port }) ∧
    (takeAck ip n a s).portAt ip = { s.portAt ip with link := (s.portAt ip).link.acked a } := by
  unfold takeAck
  dsimp only
  split
  case isTrue old => exact ⟨⟨s.port, rfl⟩, by simp [LinkSt.acked, old]⟩
  case isFalse new =>
    generalize update : s.modLink ip _ = w
    have port : w.portAt ip = { s.portAt ip with link := (s.portAt ip).link.acked a } := by
      rw [← update, State.modLink, State.portAt_modPort_self]
      simp [LinkSt.acked, new]
    have free : Unburdened ip w := h.of_eq (by rw [port]; rfl) (by rw [port]; rfl) (by rw [port]; rfl) (by rw [← update]; rfl)
    rw [settleRx_of_unburdened n free, fatalPort_of_noFlush ip free.flush]
    exact ⟨⟨w.port, by rw [← update]; rfl⟩, port⟩

/-! ### A flit comes in (R191, R192, R197) -/

/-- What `State.hearsFlit` says of a flit with header `h` and payload `pl`. -/
theorem hearsFlit_elim {ip n : Nat} {f : RxFlit} {ok : Hdr → List Byte → Bool} {h : Hdr} {pl : List Byte}
    (hears : s.hearsFlit ip f n ok = true) (head : s.flitHead ip f = some (h, pl)) :
    s.still = false ∧ s.linkPath ip = some n ∧ s.hears ip f.pos.val = true ∧ s.flitOk n false h pl = true ∧ ok h pl = true ∧
    Unburdened ip s := by
  unfold State.hearsFlit at hears
  rw [head] at hears
  simp only [Bool.and_eq_true, Bool.not_eq_true', beq_iff_eq, List.isEmpty_iff] at hears
  obtain ⟨⟨⟨⟨⟨⟨⟨still, link⟩, lane⟩, valid, good⟩, cells⟩, got⟩, refuse⟩, flush⟩ := hears
  exact ⟨still, link, lane, valid, good, cells, got, refuse, flush⟩

theorem readFlit_of_flitHead {ip : Nat} {f : RxFlit} {h : Hdr} {pl : List Byte} (head : s.flitHead ip f = some (h, pl)) :
    ∃ hw corrected, s.readFlit ip f = .got hw pl corrected ∧ hdrOf hw = h := by
  unfold State.flitHead at head
  split at head
  · cases head
  next hw pl' corrected read =>
    cases head
    exact ⟨hw, corrected, read, rfl⟩

/-- The state in which a valid flit with header `h` takes effect (R191, R192, R200). -/
def State.received (s : State) (t ip n : Nat) (f : RxFlit) (corrected : Nat) (h : Hdr) : State :=
  takeAck ip n h.ack (heard ip h (tookFlit ip f corrected (s.at t)))

/-- A valid flit that a command is about: a sequenced one takes its way by number, and then the command acts (R191, R202). -/
theorem rxEffect_of_read {t ip n : Nat} {f : RxFlit} {want : Hdr → List Byte → Bool}
    {act : Nat → Hdr → List Byte → State → State}
    {hw : BitVec 96} {pl : List Byte} {corrected : Nat} (link : s.linkPath ip = some n) (hears : s.hears ip f.pos.val = true)
    (read : s.readFlit ip f = .got hw pl corrected) (valid : s.flitOk n false (hdrOf hw) pl = true) (wanted : want (hdrOf hw) pl = true) :
    rxEffect t ip f want act s = act n (hdrOf hw) pl (if (hdrOf hw).sequenced then
      takeSequenced ip n hw pl (s.received t ip n f corrected (hdrOf hw)) else s.received t ip n f corrected (hdrOf hw)) := by
  have link' : (s.at t).linkPath ip = some n := link
  have hears' : (s.at t).hears ip f.pos.val = true := hears
  have read' : (s.at t).readFlit ip f = .got hw pl corrected := read
  have valid' : (tookFlit ip f corrected (s.at t)).flitOk n false (hdrOf hw) pl = true := valid
  simp only [rxEffect, link', hears', read', valid', wanted, Bool.not_true, Bool.false_eq_true, if_false]
  split <;> rfl

/-- `v` is `s` after the arrival at `t` of a valid flit with header `h` on port `ip`: the lanes and ports apart nothing has changed, and
of port `ip` the link is alive and holds the acknowledgement; counters, ladder and the notes of messages acted on may have moved. -/
structure Arrival (ip t : Nat) (h : Hdr) (s v : State) : Prop where
  rest : ∃ lane port, v = { s with now := max s.now t, lane := lane, port := port }
  port : ∃ cnt lad tunRx spareRx, v.portAt ip = { s.portAt ip with
    link := { { (s.portAt ip).link with heardAt := max s.now t, silent := false }.acked h.ack with tunRx := tunRx }
    cnt := cnt, lad := lad, spareRx := spareRx }

theorem heard_portAt (ip : Nat) (h : Hdr) (s : State) :
    (∃ port, heard ip h s = { s with port := port }) ∧
    ∃ cnt lad, (heard ip h s).portAt ip = { s.portAt ip with
      link := { (s.portAt ip).link with heardAt := s.now, silent := false }, cnt := cnt, lad := lad } := by
  unfold heard
  dsimp only
  split
  · exact ⟨⟨_, rfl⟩, _, _, State.portAt_modPort_self s ip _⟩
  · exact ⟨⟨_, rfl⟩, _, _, by rw [State.modLad, State.portAt_modPort_self, State.portAt_modPort_self]⟩

/-- A flit that is heard on a link with nothing pending arrives (R191-R200), and its messages acted on stand as noted. -/
theorem received_arrival {t ip n : Nat} (f : RxFlit) (corrected : Nat) (h : Hdr) (free : Unburdened ip s) :
    Arrival ip t h s (s.received t ip n f corrected h) ∧
    ((s.received t ip n f corrected h).portAt ip).link.tunRx = (s.portAt ip).link.tunRx ∧
    ((s.received t ip n f corrected h).portAt ip).spareRx = (s.portAt ip).spareRx := by
  obtain ⟨⟨port, alive⟩, cnt, lad, hp⟩ := heard_portAt ip h (tookFlit ip f corrected (s.at t))
  have before : (tookFlit ip f corrected (s.at t)).portAt ip = s.portAt ip := rfl
  have now : (tookFlit ip f corrected (s.at t)).now = max s.now t := rfl
  rw [before, now] at hp
  have free' : Unburdened ip (heard ip h (tookFlit ip f corrected (s.at t))) :=
    free.of_eq (by rw [hp]) (by rw [hp]) (by rw [hp]) (by rw [alive]; rfl)
  obtain ⟨⟨port', acked⟩, hp'⟩ := takeAck_of_unburdened n h.ack free'
  rw [hp] at hp'
  unfold State.received
  refine ⟨⟨⟨(tookFlit ip f corrected (s.at t)).lane, port', ?_⟩, cnt, lad, _, _, hp'⟩, by rw [hp']; rfl, by rw [hp']⟩
  rw [acked, alive]
  rfl

/-- An unsequenced flit arrives, and a command that is about it acts on its arrival (R193, R195). -/
theorem rxFlit_of_unsequenced {ip n : Nat} {f : RxFlit} {ok : Hdr → List Byte → Bool} {h : Hdr} {pl : List Byte} (t : Nat)
    (hears : s.hearsFlit ip f n ok = true) (head : s.flitHead ip f = some (h, pl)) (loose : h.sequenced = false) :
    ∃ v, (∀ (want : Hdr → List Byte → Bool) (act : Nat → Hdr → List Byte → State → State), want h pl = true →
        rxFlit t ip f want act s = .next (settle s (act n h pl v))) ∧
      Arrival ip t h s v ∧ (v.portAt ip).link.tunRx = (s.portAt ip).link.tunRx ∧ (v.portAt ip).spareRx = (s.portAt ip).spareRx := by
  obtain ⟨still, link, lane, valid, -, free⟩ := hearsFlit_elim hears head
  obtain ⟨hw, corrected, read, rfl⟩ := readFlit_of_flitHead head
  refine ⟨s.received t ip n f corrected (hdrOf hw), fun want act wanted => ?_, received_arrival f corrected _ free⟩
  rw [rxFlit, live_of_running still, rxEffect_of_read link lane read valid wanted, loose]
  rfl

theorem ofType_typ {typ cls : Nat} {h : Hdr} {pl : List Byte} (e : ofType typ cls h pl = true) : h.typ = typ := by
  unfold ofType at e
  exact beq_iff_eq.mp (Bool.and_eq_true_iff.mp e).1

theorem ofType_cls {cls : Nat} {h : Hdr} {pl : List Byte} (e : ofType 2 cls h pl = true) : h.cls = cls := by
  have typ := ofType_typ e
  simpa [ofType, typ] using e

/-- ACK, NAK, IDLE and BEATECHO flits have no number (R193). -/
theorem unsequenced_of_typ {h : Hdr} (e : h.typ = 3 ∨ h.typ = 4 ∨ h.typ = 5 ∨ h.typ = 8) : h.sequenced = false := by
  rcases e with e | e | e | e <;> simp only [Hdr.sequenced, e]

/-- LADDER, TUNNEL and SPARE messages have no number (R193, R195). -/
theorem unsequenced_of_cls {h : Hdr} (typ : h.typ = 2) (cls : h.cls = 3 ∨ h.cls = 4) : h.sequenced = false := by
  rcases cls with cls | cls <;> simp [Hdr.sequenced, typ, cls]

namespace Arrival

variable {ip t : Nat} {h : Hdr} {s v : State}

theorem path (a : Arrival ip t h s v) : v.path = s.path := by
  obtain ⟨_, _, e⟩ := a.rest
  rw [e]

theorem flt (a : Arrival ip t h s v) : v.flt = s.flt := by
  obtain ⟨_, _, e⟩ := a.rest
  rw [e]

theorem log (a : Arrival ip t h s v) : v.log = s.log := by
  obtain ⟨_, _, e⟩ := a.rest
  rw [e]

theorem unburdened (a : Arrival ip t h s v) (free : Unburdened ip s) : Unburdened ip v := by
  obtain ⟨_, _, rest⟩ := a.rest
  obtain ⟨_, _, _, _, port⟩ := a.port
  exact free.of_eq (by rw [port]; rfl) (by rw [port]; rfl) (by rw [port]; rfl) (by rw [rest])

end Arrival

end Sys2Proof.Machine
end

section
/-! Unsequenced flits (R193, R200-R207, R231). -/

namespace Sys2Proof.Machine

variable {s v : State}

/-! ### Retransmission (R205, R206, R207) -/

/-- The unresolved flits of port `ip`, those that meet a test due again. -/
def State.resent (s : State) (ip : Nat) (p : TxFlit → Bool) : List TxFlit :=
  (s.portAt ip).link.unres.map (fun f =>
    if p f then { f.again with limit := f.limit || (p f && f.worn (s.replayLimit ip)) } else f)

/-- A retransmission makes flits due again; a worn one raises link_error as well (R207). -/
theorem replayWhere_reacts (ip : Nat) (p : TxFlit → Bool) :
    Reacts (s.modLink ip (fun l => { l with unres := s.resent ip p })) (replayWhere ip p s) := by
  unfold replayWhere
  dsimp only
  split
  · exact Reacts.refl _
  · exact Reacts.ite (Reacts.raise _) (Reacts.refl _)

/-- A retransmission keeps what reactions keep of a port, its unresolved flits apart. -/
theorem replayWhere_portAt {α : Type} (ip : Nat) (p : TxFlit → Bool) (g : PortSt → α) (kept : ∀ q, g q.kept = g q)
    (unres : ∀ (q : PortSt) us, g { q with link := { q.link with unres := us } } = g q) (s : State) :
    g ((replayWhere ip p s).portAt ip) = g (s.portAt ip) := by
  rw [(replayWhere_reacts ip p).portAt ip g kept, State.modLink, State.portAt_modPort_self, unres]

theorem replayWhere_unres (ip : Nat) (p : TxFlit → Bool) (s : State) :
    ((replayWhere ip p s).portAt ip).link.unres = s.resent ip p := by
  rw [(replayWhere_reacts ip p).portAt ip (·.link.unres) (fun _ => rfl), State.modLink, State.portAt_modPort_self]

/-- Each unresolved flit that meets a test on its number is due again. -/
theorem due_of_mem_resent {ip : Nat} {p : Seq → Bool} {x : TxFlit} (mem : x ∈ s.resent ip (fun f => p f.seq)) (meets : p x.seq = true) :
    x.due = true := by
  unfold State.resent at mem
  obtain ⟨f, -, e⟩ := List.mem_map.mp mem
  split at e
  case isTrue => rw [← e]; rfl
  case isFalse no => exact absurd (e ▸ meets) no

/-! ### IDLE, ACK, NAK and BEATECHO (R193, R200-R205, R231) -/

/-- IDLE completes (R193, R200, R241). -/
theorem idle_completes {t : Nat} {ip : PortNo} {f : RxFlit} {n : Nat} {h : Hdr} {pl : List Byte}
    (hears : s.hearsFlit ip.val f n (ofType 5 0) = true) (head : s.flitHead ip.val f = some (h, pl))
    (newer : seqBefore h.ack (s.portAt ip.val).link.peerAck = false) : completes (.idle t ip f) s (fun u =>
      (u.portAt ip.val).link.heardAt = max s.now t ∧ (u.portAt ip.val).link.peerAck = h.ack ∧
      (u.portAt ip.val).link.unres = (s.portAt ip.val).link.unres.filter (fun x => !seqUpTo x.seq h.ack)) := by
  obtain ⟨-, -, -, -, kind, -⟩ := hearsFlit_elim hears head
  obtain ⟨v, run, arrival, -⟩ := rxFlit_of_unsequenced t hears head (unsequenced_of_typ (by rw [ofType_typ kind]; decide))
  obtain ⟨cnt, lad, tunRx, spareRx, hv⟩ := arrival.port
  refine ⟨_, run _ _ kind, ?_, ?_, ?_⟩
  · rw [settle_portAt s ip.val (·.link.heardAt) (fun _ => rfl), hv]
    rfl
  · rw [settle_portAt s ip.val (·.link.peerAck) (fun _ => rfl), hv]
    simp [LinkSt.acked, newer]
  · rw [settle_portAt s ip.val (·.link.unres) (fun _ => rfl), hv]
    simp [LinkSt.acked, newer]

/-- ACK completes (R201): its bits mark flits accepted out of order. -/
theorem ack_completes {t : Nat} {ip : PortNo} {f : RxFlit} {n : Nat} {h : Hdr} {pl : List Byte}
    (hears : s.hearsFlit ip.val f n (ofType 3 0) = true) (head : s.flitHead ip.val f = some (h, pl)) :
    completes (.ack t ip f) s (fun u => ∀ x ∈ (u.portAt ip.val).link.unres, seqDist (h.ack + 1) x.seq < 2048 →
      bitAt pl (seqDist (h.ack + 1) x.seq) = true → x.sel = true) := by
  obtain ⟨-, -, -, -, kind, -⟩ := hearsFlit_elim hears head
  obtain ⟨v, run, -⟩ := rxFlit_of_unsequenced t hears head (unsequenced_of_typ (by rw [ofType_typ kind]; decide))
  refine ⟨_, run _ _ kind, fun x mem near bit => ?_⟩
  rw [settle_portAt s ip.val (·.link.unres) (fun _ => rfl), State.modLink, State.portAt_modPort_self] at mem
  obtain ⟨y, -, e⟩ := List.mem_map.mp mem
  dsimp only at e
  split at e
  case isTrue => rw [← e]
  case isFalse no => exact absurd ⟨e ▸ near, e ▸ bit⟩ no

/-- NAK completes for one SEQ entry (R203, R205): the flits of its range are due again. -/
theorem nak_completes {t : Nat} {ip : PortNo} {f : RxFlit} {n : Nat} {h : Hdr} {pl : List Byte} {a b : Seq}
    (hears : s.hearsFlit ip.val f n (ofType 4 0) = true) (head : s.flitHead ip.val f = some (h, pl))
    (entry : nakEntries h pl = some [.seq a b]) :
    completes (.nak t ip f) s (fun u => ∀ x ∈ (u.portAt ip.val).link.unres, inRange x.seq (a, b) = true → x.due = true) := by
  obtain ⟨-, -, -, -, kind, -⟩ := hearsFlit_elim hears head
  obtain ⟨v, run, -⟩ := rxFlit_of_unsequenced t hears head (unsequenced_of_typ (by rw [ofType_typ kind]; decide))
  refine ⟨_, run _ _ kind, fun x mem within => ?_⟩
  rw [settle_portAt s ip.val (·.link.unres) (fun _ => rfl), entry] at mem
  have again : x ∈ v.resent ip.val (fun f => inRange f.seq (a, b)) := replayWhere_unres ip.val _ v ▸ mem
  exact due_of_mem_resent (p := fun q => inRange q (a, b)) again within

/-- The answer to an own echo moves no echo that was received (R232). -/
theorem takeAnswer_keeps (ip n : Nat) (id : Word) (s : State) :
    ((takeAnswer ip n id s).portAt ip).cnt.peerBeat = (s.portAt ip).cnt.peerBeat ∧
    ((takeAnswer ip n id s).portAt ip).link.echoRx = (s.portAt ip).link.echoRx := by
  unfold takeAnswer
  split
  · exact ⟨rfl, rfl⟩
  · dsimp only
    generalize rtt : State.modCnt _ _ _ = w
    have timed : (w.portAt ip).cnt.peerBeat = (s.portAt ip).cnt.peerBeat ∧ (w.portAt ip).link.echoRx = (s.portAt ip).link.echoRx := by
      rw [← rtt]
      simp only [State.modCnt, State.modLink, State.portAt_modPort_self, and_self]
    split
    · rw [(Reacts.raise _).portAt ip (·.cnt.peerBeat) (fun _ => rfl), (Reacts.raise _).portAt ip (·.link.echoRx) (fun _ => rfl)]
      exact timed
    · exact timed

/-- BEATECHO completes (R231). -/
theorem beatEcho_completes {t : Nat} {ip : PortNo} {f : RxFlit} {n : Nat} {h : Hdr} {pl : List Byte}
    (hears : s.hearsFlit ip.val f n (ofType 8 0) = true) (head : s.flitHead ip.val f = some (h, pl)) :
    completes (.beatEcho t ip f) s (fun u =>
      (u.portAt ip.val).cnt.peerBeat = BitVec.ofNat 64 (field pl 0 8) ∧
      (u.portAt ip.val).link.echoRx = BitVec.ofNat 32 (field pl 8 4) ∧
      (field pl 16 1 = 0 → (u.portAt ip.val).link.echoAns = some (BitVec.ofNat 32 (field pl 8 4)))) := by
  obtain ⟨-, -, -, -, kind, -⟩ := hearsFlit_elim hears head
  obtain ⟨v, run, -⟩ := rxFlit_of_unsequenced t hears head (unsequenced_of_typ (by rw [ofType_typ kind]; decide))
  refine ⟨_, run _ _ kind, ?_⟩
  dsimp only
  rw [settle_portAt s ip.val (·.cnt.peerBeat) (fun _ => rfl), settle_portAt s ip.val (·.link.echoRx) (fun _ => rfl),
    settle_portAt s ip.val (·.link.echoAns) (fun _ => rfl)]
  generalize noted : State.modLink (State.modCnt v _ _) _ _ = w
  have read : (w.portAt ip.val).cnt.peerBeat = BitVec.ofNat 64 (field pl 0 8) ∧
      (w.portAt ip.val).link.echoRx = BitVec.ofNat 32 (field pl 8 4) := by
    rw [← noted]
    simp only [State.modCnt, State.modLink, State.portAt_modPort_self, and_self]
  split
  case isTrue answer =>
    obtain ⟨beat, rx⟩ := takeAnswer_keeps ip.val n (BitVec.ofNat 32 (field pl 12 4)) w
    exact ⟨beat.trans read.1, rx.trans read.2, fun ask => absurd answer (by omega)⟩
  case isFalse =>
    rw [State.modLink, State.portAt_modPort_self]
    exact ⟨read.1, read.2, fun _ => rfl⟩

/-- Settles O21: an unsequenced flit arrives and its command acts at once; the settling at the end undoes none of it. -/
theorem unsequencedFlitsComplete : Obligations.UnsequencedFlitsComplete := by
  unfold Obligations.UnsequencedFlitsComplete
  refine ⟨?_, ?_, ?_, ?_⟩
  · intro t ip f n h pl s hears head newer
    exact idle_completes hears head newer
  · intro t ip f n h pl s hears head _
    exact ack_completes hears head
  · intro t ip f n h pl a b s hears head entry
    exact nak_completes hears head entry
  · intro t ip f n h pl s hears head
    exact beatEcho_completes hears head

end Sys2Proof.Machine
end

section
/-! The timers of the link (R195, R201, R219, R231, R235, R241). -/

namespace Sys2Proof.Machine

variable {s v : State}

/-- Link_error of a path whose source is armed is raised afresh, and the settling of the command leaves it so (R355, R358). -/
theorem raisedIn_linkError {n : Nat} (before : State) (slot : n < 32) (flt : v.flt = s.flt) (regs : v.regs = s.regs)
    (armed : s.armed (srcPath n 4) = true) : s.raisedIn (srcPath n 4) (settle before (linkError n v)) := by
  have low : srcPath n 4 < 1920 := by unfold srcPath; omega
  have classes : v.classReg (srcPath n 4) = s.classReg (srcPath n 4) := by
    unfold State.classReg State.bits State.reg
    rw [regs]
  have source : v.srcAt (srcPath n 4) = s.srcAt (srcPath n 4) := by unfold State.srcAt; rw [flt]
  have armed' : v.armed (srcPath n 4) = true := by
    unfold State.armed
    rw [source, classes]
    exact armed
  have raised := (raisedIn_raise (by omega) armed').of_srcAt
    (srcAt_settle (s := linkError n v) before (by omega) (by omega) (by omega) (by omega))
  unfold State.raisedIn at raised ⊢
  rw [← classes]
  exact raised

/-- What a reaction never writes of a port stands through link_error and the settling of the command. -/
theorem settle_linkError_portAt {α : Type} (before : State) (n ip : Nat) (g : PortSt → α) (kept : ∀ p, g p.kept = g p) (s : State) :
    g ((settle before (linkError n s)).portAt ip) = g (s.portAt ip) := by
  exact ((Reacts.raise (srcPath n 4)).trans (Reacts.settle before)).portAt ip g kept

/-- ACK_TIMER completes (R201). -/
theorem ackTimer_completes {t : Nat} {ip : PortNo} {n : Nat} (still : s.still = false) (link : s.linkPath ip.val = some n)
    (pending : (s.portAt ip.val).link.got ≠ []) (now : (s.portAt ip.val).link.ackNext ≤ max s.now t) :
    completes (.ackTimer t ip) s (fun u =>
      (u.portAt ip.val).link.ackDue = true ∧ (u.portAt ip.val).link.ackNext = max s.now t + us) := by
  have run : exec (.ackTimer t ip) s = execAckTimer t ip s := rfl
  have link' : (s.at t).linkPath ip.val = some n := link
  have pending' : ((s.at t).portAt ip.val).link.got.isEmpty = false := List.isEmpty_eq_false_iff.mpr pending
  have now' : decide ((s.at t).now < ((s.at t).portAt ip.val).link.ackNext) = false := decide_eq_false (Nat.not_lt.mpr now)
  rw [execAckTimer, live_of_running still] at run
  simp only [link', pending', now', Option.isNone_some, Bool.or_self, Bool.false_eq_true, if_false] at run
  refine ⟨_, run, ?_, ?_⟩
  · exact (settle_portAt s ip.val (·.link.ackDue) (fun _ => rfl) _).trans (by simp only [State.modLink, State.portAt_modPort_self])
  · exact (settle_portAt s ip.val (·.link.ackNext) (fun _ => rfl) _).trans (by simp only [State.modLink, State.portAt_modPort_self]; rfl)

/-- ECHO_TIMER completes (R231). -/
theorem echoTimer_completes {t : Nat} {ip : PortNo} {n : Nat} (still : s.still = false) (link : s.linkPath ip.val = some n)
    (now : (s.portAt ip.val).link.echoNext ≤ max s.now t) :
    completes (.echoTimer t ip) s (fun u => (u.portAt ip.val).link.echoDue = true ∧
      (u.portAt ip.val).link.echoNext = max s.now t + us * s.echoUs ip.val) := by
  have run : exec (.echoTimer t ip) s = execEchoTimer t ip s := rfl
  have link' : (s.at t).linkPath ip.val = some n := link
  have now' : decide ((s.at t).now < ((s.at t).portAt ip.val).link.echoNext) = false := decide_eq_false (Nat.not_lt.mpr now)
  rw [execEchoTimer, live_of_running still] at run
  simp only [link', now', Option.isNone_some, Bool.or_self, Bool.false_eq_true, if_false] at run
  refine ⟨_, run, ?_, ?_⟩
  · exact (settle_portAt s ip.val (·.link.echoDue) (fun _ => rfl) _).trans (by simp only [State.modLink, State.portAt_modPort_self])
  · exact (settle_portAt s ip.val (·.link.echoNext) (fun _ => rfl) _).trans (by simp only [State.modLink, State.portAt_modPort_self]; rfl)

/-- LINK_SILENCE completes (R241). -/
theorem linkSilence_completes {t : Nat} {ip : PortNo} {n : Nat} (still : s.still = false) (link : s.linkPath ip.val = some n)
    (first : (s.portAt ip.val).link.silent = false) (now : (s.portAt ip.val).link.heardAt + 10 * us ≤ max s.now t) :
    completes (.linkSilence t ip) s (fun u =>
      (u.portAt ip.val).link.silent = true ∧ (s.armed (srcPath n 4) = true → s.raisedIn (srcPath n 4) u)) := by
  have run : exec (.linkSilence t ip) s = execLinkSilence t ip s := rfl
  have link' : (s.at t).linkPath ip.val = some n := link
  have due : ¬(((s.at t).portAt ip.val).link.silent = true ∨ (s.at t).now < ((s.at t).portAt ip.val).link.heardAt + 10 * us) := by
    rintro (silent | early)
    · exact Bool.false_ne_true (first.symm.trans silent)
    · exact Nat.not_lt.mpr now early
  rw [execLinkSilence, live_of_running still] at run
  simp only [link', due, if_false] at run
  refine ⟨_, run, ?_, raisedIn_linkError s (linkPath_lt link) rfl rfl⟩
  exact (settle_linkError_portAt s n ip.val (·.link.silent) (fun _ => rfl) _).trans
    (by simp only [State.modLink, State.portAt_modPort_self])

/-- A message that is the first to be overdue is marked, and with it every one equal to it. -/
theorem late_of_mem_mark {m x : SpareMsg} {l : List SpareMsg} (only : ∀ y ∈ l, y = m)
    (mem : x ∈ l.map (fun x => if x == m then { x with late := true } else x)) : x.late = true := by
  obtain ⟨y, hy, e⟩ := List.mem_map.mp mem
  rw [only y hy, beq_self_eq_true, if_pos rfl] at e
  rw [← e]

/-- SPARE_TIMEOUT completes for an own message without an answer (R219). -/
theorem spareTimeout_completes_unanswered {t : Nat} {ip : PortNo} {n : Nat} {m : SpareMsg} (still : s.still = false)
    (link : s.linkPath ip.val = some n) (spare : (s.portAt ip.val).spare = [m]) (first : m.late = false)
    (now : m.since + 10 * us ≤ max s.now t) :
    completes (.spareTimeout t ip) s (fun u => (∀ x ∈ (u.portAt ip.val).spare, x.late = true) ∧
      (s.armed (srcPath n 4) = true → s.raisedIn (srcPath n 4) u)) := by
  have run : exec (.spareTimeout t ip) s = execSpareTimeout t ip s := rfl
  have link' : (s.at t).linkPath ip.val = some n := link
  have overdue : ((s.at t).portAt ip.val).spare.find? (·.overdue (s.at t).now) = some m := by
    rw [show ((s.at t).portAt ip.val).spare = [m] from spare]
    exact List.find?_cons_of_pos (by simp [SpareMsg.overdue, first, State.at, now])
  rw [execSpareTimeout, live_of_running still] at run
  simp only [link', overdue] at run
  refine ⟨_, run, fun x mem => ?_, raisedIn_linkError s (linkPath_lt link) rfl rfl⟩
  rw [settle_linkError_portAt s n ip.val (·.spare) (fun _ => rfl), State.portAt_modPort_self] at mem
  refine late_of_mem_mark (fun y hy => ?_) mem
  exact List.mem_singleton.mp (spare ▸ hy : y ∈ [m])

/-- SPARE_TIMEOUT completes for an answer whose message the partner still repeats (R219; DEDUCED, notes/assumptions/140.md). -/
theorem spareTimeout_completes_repeated {t : Nat} {ip : PortNo} {n : Nat} {m : SpareMsg} (still : s.still = false)
    (link : s.linkPath ip.val = some n) (spare : (s.portAt ip.val).spare = []) (answers : (s.portAt ip.val).spareAns = [m])
    (first : m.late = false) (now : m.since + 10 * us ≤ m.repeated) :
    completes (.spareTimeout t ip) s (fun u => (∀ x ∈ (u.portAt ip.val).spareAns, x.late = true) ∧
      (s.armed (srcPath n 4) = true → s.raisedIn (srcPath n 4) u)) := by
  have run : exec (.spareTimeout t ip) s = execSpareTimeout t ip s := rfl
  have link' : (s.at t).linkPath ip.val = some n := link
  have punctual : ((s.at t).portAt ip.val).spare.find? (·.overdue (s.at t).now) = none := by
    rw [show ((s.at t).portAt ip.val).spare = [] from spare]
    rfl
  have overdue : ((s.at t).portAt ip.val).spareAns.find? (fun m => m.overdue m.repeated) = some m := by
    rw [show ((s.at t).portAt ip.val).spareAns = [m] from answers]
    exact List.find?_cons_of_pos (by simp [SpareMsg.overdue, first, now])
  rw [execSpareTimeout, live_of_running still] at run
  simp only [link', punctual, overdue] at run
  refine ⟨_, run, fun x mem => ?_, raisedIn_linkError s (linkPath_lt link) rfl rfl⟩
  rw [settle_linkError_portAt s n ip.val (·.spareAns) (fun _ => rfl), State.portAt_modPort_self] at mem
  refine late_of_mem_mark (fun y hy => ?_) mem
  exact List.mem_singleton.mp (answers ▸ hy : y ∈ [m])

/-! ### Repetition (R147, R195, R216, R235) -/

/-- Setting keys to one value leaves that value at each of them. -/
theorem get_foldl_set {α : Type} (d all : BitVec 18) (key : α → Nat) (l : List α) (k : Nat) (table : Tbl (BitVec 18))
    (mem : (∃ m ∈ l, key m = k) ∨ table.get d k = all) : (l.foldl (fun t m => t.set d (key m) all) table).get d k = all := by
  induction l generalizing table with
  | nil => simpa using mem
  | cons x l ih =>
    refine ih _ ?_
    by_cases here : k = key x
    · exact .inr (by rw [here, Tbl.get_set_self])
    · rcases mem with ⟨m, hm, e⟩ | value
      · rcases List.mem_cons.mp hm with rfl | tail
        · exact absurd e.symm here
        · exact .inl ⟨m, tail, e⟩
      · exact .inr (by rw [Tbl.get_set_ne _ _ _ here, value])

/-- CTRL_REPEAT completes (R147, R195, R216, R235). -/
theorem ctrlRepeat_completes {t : Nat} {ip : PortNo} (still : s.still = false) : completes (.ctrlRepeat t ip) s (fun u =>
    (∀ m ∈ (s.portAt ip.val).spare, m.sentAt + 100 * ns ≤ max s.now t →
      { m with due := 0x3FFFF, sentAt := max s.now t } ∈ (u.portAt ip.val).spare) ∧
    ((s.portAt ip.val).link.tunMsg ≠ none → (s.portAt ip.val).link.tunAt + us ≤ max s.now t →
      (u.portAt ip.val).link.tunDue = 0x3FFFF ∧ (u.portAt ip.val).link.tunAt = max s.now t) ∧
    (∀ m ∈ (s.portAt ip.val).lad.sends, (s.portAt ip.val).lad.sentAt + us ≤ max s.now t →
      (u.portAt ip.val).lad.sendDue.get 0 m.1 = 0x3FFFF)) := by
  have run : exec (.ctrlRepeat t ip) s = execCtrlRepeat t ip s := rfl
  rw [execCtrlRepeat, live_of_running still] at run
  refine ⟨_, run, fun m mem late => ?_, fun waits late => ?_, fun m mem late => ?_⟩
  · rw [settle_portAt s ip.val (·.spare) (fun _ => rfl), State.portAt_modPort_self]
    refine List.mem_map.mpr ⟨m, ?_, if_pos late⟩
    split <;> split <;> exact mem
  · have tunDue := settle_portAt s ip.val (·.link.tunDue) (fun _ => rfl)
    have tunAt := settle_portAt s ip.val (·.link.tunAt) (fun _ => rfl)
    have again : (((s.at t).portAt ip.val).link.tunMsg.isSome = true ∧
        ((s.at t).portAt ip.val).link.tunAt + us ≤ (s.at t).now) := ⟨Option.isSome_iff_ne_none.mpr waits, late⟩
    rw [tunDue, tunAt, State.portAt_modPort_self]
    dsimp only
    rw [if_pos]
    · exact ⟨rfl, rfl⟩
    · split <;> exact again
  · rw [settle_portAt s ip.val (·.lad.sendDue) (fun _ => rfl), State.portAt_modPort_self]
    have nonempty : ((s.at t).portAt ip.val).lad.sends.isEmpty = false := List.isEmpty_eq_false_iff.mpr (List.ne_nil_of_mem mem)
    have again : (!((s.at t).portAt ip.val).lad.sends.isEmpty) = true ∧ ((s.at t).portAt ip.val).lad.sentAt + us ≤ (s.at t).now :=
      ⟨by rw [nonempty]; rfl, late⟩
    dsimp only
    rw [if_pos again]
    have due := get_foldl_set 0 0x3FFFF (·.1) (s.portAt ip.val).lad.sends m.1 {} (.inl ⟨m, mem, rfl⟩)
    split <;> exact due

/-- Settles O24: each timer's condition holds, so its effect takes place, and neither link_error nor the settling undoes it. -/
theorem linkTimersComplete : Obligations.LinkTimersComplete := by
  unfold Obligations.LinkTimersComplete
  refine ⟨?_, ?_, ?_, ?_, ?_, ?_⟩
  · intro t ip n s still link pending now
    exact ackTimer_completes still link pending now
  · intro t ip n s still link now
    exact echoTimer_completes still link now
  · intro t ip n s still link first now
    exact linkSilence_completes still link first now
  · intro t ip n m s still link spare first now
    exact spareTimeout_completes_unanswered still link spare first now
  · intro t ip n m s still link spare answers first now
    exact spareTimeout_completes_repeated still link spare answers first now
  · intro t ip s still
    exact ctrlRepeat_completes still

end Sys2Proof.Machine
end

section
/-! TUNNEL messages (R195, R225, R235-R238). -/

namespace Sys2Proof.Machine

variable {s t v : State}

/-- A TUNNEL message on a link with nothing pending that is no repeat: its arrival is noted, and the command acts on it (R195). -/
theorem rxTunnel_of_new {op n : Nat} {ip : PortNo} {f : RxFlit} {h : Hdr} {pl : List Byte} (t : Nat)
    (hears : s.hearsFlit ip.val f n (ofType 2 3) = true) (head : s.flitHead ip.val f = some (h, pl)) (is : field pl 0 1 = op)
    (new : (s.portAt ip.val).link.repeats pl = false) :
    ∃ v, (∀ act, rxTunnel t ip.val f op act s = .next (settle s (act n pl v))) ∧ Arrival ip.val t h s v := by
  obtain ⟨-, -, -, -, kind, -⟩ := hearsFlit_elim hears head
  obtain ⟨v, run, arrival, noted, -⟩ :=
    rxFlit_of_unsequenced t hears head (unsequenced_of_cls (ofType_typ kind) (.inl (ofType_cls kind)))
  obtain ⟨lane, ports, rest⟩ := arrival.rest
  obtain ⟨cnt, lad, tunRx, spareRx, port⟩ := arrival.port
  have new' : (v.portAt ip.val).link.repeats pl = false := by
    rw [port] at noted ⊢
    rw [show tunRx = (s.portAt ip.val).link.tunRx from noted]
    exact new
  refine ⟨v.modLink ip.val (fun l => { l with tunRx := l.tunRx.set none op (some (pl.take 16)) }), fun act => ?_,
    ⟨lane, _, by rw [rest]; rfl⟩, cnt, lad, tunRx.set none op (some (pl.take 16)), spareRx, ?_⟩
  · rw [rxTunnel, run _ _ (by rw [kind, is]; exact beq_self_eq_true op), if_neg (Bool.eq_false_iff.mp new')]
  · rw [State.modLink, State.portAt_modPort_self, port]

/-! ### START (R225, R235) -/

/-- A link whose tunnel runs from interval 0 (R225, R235). -/
def LinkSt.fromZero (l : LinkSt) : LinkSt := { l with tunnel := 1, rxCount := 0 }

/-- Whether a tunnel of path `n` may run: in the Guard family, outside the safe state and DRAIN (R225, R235). -/
def State.tunnelBarred (s : State) (n : Nat) : Bool :=
  !(s.pathAt n).mode.guardFam || (s.pathAt n).safe || (s.pathAt n).phase == .drain

/-- The tunnel's run from interval 0 changes of its port's link that alone, and where it is barred nothing. -/
theorem tunnelRuns_link (ip n : Nat) (s : State) : ((tunnelRuns ip n s).portAt ip).link =
    if s.tunnelBarred n then (s.portAt ip).link else (s.portAt ip).link.fromZero := by
  unfold tunnelRuns State.tunnelBarred
  dsimp only
  split
  · rw [State.modCnt, State.portAt_modPort_self]
  · rw [State.portAt, State.modPath_port, ← State.portAt, State.modLink, State.portAt_modPort_self, State.modCnt,
      State.portAt_modPort_self]
    rfl

/-- The path of a tunnel that runs from interval 0 plays and packs from there (R225). -/
theorem tunnelRuns_path {ip n : Nat} (free : s.tunnelBarred n = false) :
    ((tunnelRuns ip n s).pathAt n).playNext = 0 ∧ ((tunnelRuns ip n s).pathAt n).packK = 0 := by
  unfold State.tunnelBarred at free
  unfold tunnelRuns
  dsimp only
  rw [if_neg (Bool.eq_false_iff.mp free), State.pathAt_modPath_self]
  exact ⟨rfl, rfl⟩

theorem tunnelRuns_calm (ip n : Nat) (s : State) : (tunnelRuns ip n s).calm = s.calm := by
  unfold tunnelRuns
  dsimp only
  split <;> rfl

/-- What a START does where no link state is retained: the tunnel runs, and the START is answered with the fresh flag (R235). -/
def answerStart (ip n : Nat) (s : State) : State :=
  (answerTunnel ip 2 true (tunnelRuns ip n s)).modLink ip (fun l => { l with fresh := false })

theorem answerStart_link (ip n : Nat) (s : State) : ∃ due, ((answerStart ip n s).portAt ip).link =
    { ((tunnelRuns ip n s).portAt ip).link with tunAns := some (2, 1, 0, 0), tunAnsDue := due, fresh := false } := by
  refine ⟨0x3FFFF, ?_⟩
  unfold answerStart answerTunnel
  rw [State.modLink, State.portAt_modPort_self, State.modLink, State.portAt_modPort_self]
  rfl

theorem exec_tunnelStart {ip : PortNo} {f : RxFlit} {n : Nat} {h : Hdr} {pl : List Byte} (t : Nat)
    (hears : s.hearsFlit ip.val f n (ofType 2 3) = true) (head : s.flitHead ip.val f = some (h, pl)) (is : field pl 0 1 = 1)
    (new : (s.portAt ip.val).link.repeats pl = false) (fresh : (s.portAt ip.val).link.fresh = true) :
    ∃ v, exec (.tunnelStart t ip f) s = .next (settle s (answerStart ip.val n v)) ∧ Arrival ip.val t h s v := by
  obtain ⟨v, run, arrival⟩ := rxTunnel_of_new t hears head is new
  obtain ⟨cnt, lad, tunRx, spareRx, port⟩ := arrival.port
  have fresh' : (v.portAt ip.val).link.fresh = true := by rw [port]; exact fresh
  have start : exec (.tunnelStart t ip f) s = execTunnelStart t ip f s := rfl
  refine ⟨v, ?_, arrival⟩
  rw [start, execTunnelStart, run]
  simp only [fresh', Bool.not_true, Bool.and_false, Bool.false_eq_true, if_false]
  rfl

/-- TUNNEL_START completes (R225, R235). -/
theorem tunnelStart_completes {t : Nat} {ip : PortNo} {f : RxFlit} {n : Nat} {h : Hdr} {pl : List Byte}
    (hears : s.hearsFlit ip.val f n (ofType 2 3) = true) (head : s.flitHead ip.val f = some (h, pl)) (is : field pl 0 1 = 1)
    (new : (s.portAt ip.val).link.repeats pl = false) (fresh : (s.portAt ip.val).link.fresh = true)
    (guard : (s.pathAt n).mode.guardFam = true) (safe : (s.pathAt n).safe = false) (phase : (s.pathAt n).phase ≠ .drain)
    (calm : s.calm = true) : completes (.tunnelStart t ip f) s (fun u =>
      (u.portAt ip.val).link.tunnel = 1 ∧ (u.portAt ip.val).link.rxCount = 0 ∧ (u.portAt ip.val).link.fresh = false ∧
      (u.portAt ip.val).link.tunAns = some (2, 1, 0, 0) ∧ (u.pathAt n).playNext = 0 ∧ (u.pathAt n).packK = 0) := by
  obtain ⟨v, run, arrival⟩ := exec_tunnelStart t hears head is new fresh
  have free : v.tunnelBarred n = false := by
    have path : v.pathAt n = s.pathAt n := by unfold State.pathAt; rw [arrival.path]
    simp [State.tunnelBarred, path, guard, safe, phase]
  have calm' : (answerStart ip.val n v).calm = true := by
    refine (tunnelRuns_calm ip.val n v).trans ?_
    unfold State.calm State.srcAt
    rw [arrival.flt, arrival.log]
    exact calm
  obtain ⟨samePort, samePath⟩ := settle_of_calm s calm'
  obtain ⟨due, link⟩ := answerStart_link ip.val n v
  rw [tunnelRuns_link, free] at link
  have port : ((settle s (answerStart ip.val n v)).portAt ip.val).link = ((answerStart ip.val n v).portAt ip.val).link := by
    unfold State.portAt
    rw [samePort]
  have path : (settle s (answerStart ip.val n v)).pathAt n = (tunnelRuns ip.val n v).pathAt n := by
    unfold State.pathAt
    rw [samePath]
    rfl
  obtain ⟨play, pack⟩ := tunnelRuns_path (ip := ip.val) free
  refine ⟨_, run, ?_⟩
  dsimp only
  rw [port, link, path]
  exact ⟨rfl, rfl, rfl, rfl, play, pack⟩

/-- START_ACK completes for the own START (R235). -/
theorem startAck_completes {t : Nat} {ip : PortNo} {f : RxFlit} {n : Nat} {h : Hdr} {pl : List Byte} {x : Nat × Nat × Nat}
    (hears : s.hearsFlit ip.val f n (ofType 2 3) = true) (head : s.flitHead ip.val f = some (h, pl)) (is : field pl 0 1 = 2)
    (new : (s.portAt ip.val).link.repeats pl = false) (fresh : (s.portAt ip.val).link.fresh = true)
    (own : (s.portAt ip.val).link.tunMsg = some (1, x)) : completes (.startAck t ip f) s (fun u =>
      (u.portAt ip.val).link.tunMsg = none ∧ (u.portAt ip.val).link.fresh = false) := by
  obtain ⟨v, run, arrival⟩ := rxTunnel_of_new t hears head is new
  obtain ⟨cnt, lad, tunRx, spareRx, port⟩ := arrival.port
  have fresh' : (v.portAt ip.val).link.fresh = true := by rw [port]; exact fresh
  have own' : (v.portAt ip.val).link.tunMsg = some (1, x) := by rw [port]; exact own
  have start : exec (.startAck t ip f) s = execStartAck t ip f s := rfl
  rw [execStartAck, run] at start
  refine ⟨_, start, ?_⟩
  simp only [own', fresh', Bool.not_true, Bool.and_false, Bool.false_eq_true, if_false]
  rw [settle_portAt s ip.val (·.link.tunMsg) (fun _ => rfl), settle_portAt s ip.val (·.link.fresh) (fun _ => rfl)]
  have ended : ((v.modLink ip.val (fun l => { l with tunMsg := none, fresh := false })).portAt ip.val).link.tunMsg = none ∧
      ((v.modLink ip.val (fun l => { l with tunMsg := none, fresh := false })).portAt ip.val).link.fresh = false := by
    rw [State.modLink, State.portAt_modPort_self]
    exact ⟨rfl, rfl⟩
  split
  · exact ended
  · rw [tunnelRuns_link]
    split <;> exact ended

/-! ### RESUME (R236, R237) -/

/-- The end of the exchange of RESUME messages moves no own message, and no note that one was acknowledged. -/
theorem resumeDone_keeps (ip n : Nat) (s : State) :
    ((resumeDone ip n s).portAt ip).link.tunMsg = (s.portAt ip).link.tunMsg ∧
    ((resumeDone ip n s).portAt ip).link.resAcked = (s.portAt ip).link.resAcked := by
  have resend : ∀ (p : TxFlit → Bool) (k c : Nat) (v : State), v = s.modLink ip (fun l => { l with tunnel := k, rxCount := c }) →
      ((replayWhere ip p v).portAt ip).link.tunMsg = (s.portAt ip).link.tunMsg ∧
      ((replayWhere ip p v).portAt ip).link.resAcked = (s.portAt ip).link.resAcked := by
    rintro p k c v rfl
    rw [replayWhere_portAt ip p (·.link.tunMsg) (fun _ => rfl) (fun _ _ => rfl),
      replayWhere_portAt ip p (·.link.resAcked) (fun _ => rfl) (fun _ _ => rfl), State.modLink, State.portAt_modPort_self]
    exact ⟨rfl, rfl⟩
  unfold resumeDone
  dsimp only
  split
  · exact ⟨rfl, rfl⟩
  split
  · exact resend _ _ _ _ rfl
  split
  · rw [((Reacts.sendFault _ _).trans (Reacts.logEvent _)).portAt ip (·.link.tunMsg) (fun _ => rfl),
      ((Reacts.sendFault _ _).trans (Reacts.logEvent _)).portAt ip (·.link.resAcked) (fun _ => rfl)]
    exact resend _ _ _ _ rfl
  · exact resend _ _ _ _ rfl

/-- Without the partner's RESUME_ACK the exchange goes on (R236). -/
theorem resumeDone_of_waiting {ip : Nat} (n : Nat) (waiting : (s.portAt ip).link.resAcked = false) : resumeDone ip n s = s := by
  simp [resumeDone, waiting]

/-- RESUME completes during a resume (R236). -/
theorem resume_completes {t : Nat} {ip : PortNo} {f : RxFlit} {n : Nat} {h : Hdr} {pl : List Byte}
    (hears : s.hearsFlit ip.val f n (ofType 2 3) = true) (head : s.flitHead ip.val f = some (h, pl)) (is : field pl 0 1 = 3)
    (new : (s.portAt ip.val).link.repeats pl = false) (flag : freshFlag pl = false) (resuming : (s.portAt ip.val).link.tunnel = 2)
    (waiting : (s.portAt ip.val).link.resAcked = false) : completes (.resume t ip f) s (fun u =>
      (u.portAt ip.val).link.resGot = true ∧ (u.portAt ip.val).link.tunAns = some (4, 0, 0, 0)) := by
  obtain ⟨-, -, -, -, -, free⟩ := hearsFlit_elim hears head
  obtain ⟨v, run, arrival⟩ := rxTunnel_of_new t hears head is new
  obtain ⟨cnt, lad, tunRx, spareRx, port⟩ := arrival.port
  have resuming' : (v.portAt ip.val).link.tunnel = 2 := by rw [port]; exact resuming
  have start : exec (.resume t ip f) s = execResume t ip f s := rfl
  rw [execResume, run] at start
  refine ⟨_, start, ?_⟩
  simp only [flag, resuming', ne_eq, not_true_eq_false, Bool.false_eq_true, if_false]
  obtain ⟨-, acked⟩ := takeAck_of_unburdened n (BitVec.ofNat 24 (field pl 5 3)) (arrival.unburdened free)
  generalize answer : State.modLink (answerTunnel _ _ _ _) _ _ = w
  have link : ∃ due, (w.portAt ip.val).link = { (v.portAt ip.val).link.acked (BitVec.ofNat 24 (field pl 5 3)) with
      tunAns := some (4, 0, 0, 0), tunAnsDue := due, resGot := true } := by
    refine ⟨0x3FFFF, ?_⟩
    rw [← answer, answerTunnel, State.modLink, State.portAt_modPort_self, State.modLink, State.portAt_modPort_self, acked]
    rfl
  obtain ⟨due, link⟩ := link
  have waiting' : (w.portAt ip.val).link.resAcked = false := by rw [link, port]; exact waiting
  rw [resumeDone_of_waiting n waiting', settle_portAt s ip.val (·.link.resGot) (fun _ => rfl),
    settle_portAt s ip.val (·.link.tunAns) (fun _ => rfl), link]
  exact ⟨rfl, rfl⟩

/-- RESUME_ACK completes for the own RESUME (R236). -/
theorem resumeAck_completes {t : Nat} {ip : PortNo} {f : RxFlit} {n : Nat} {h : Hdr} {pl : List Byte} {x : Nat × Nat × Nat}
    (hears : s.hearsFlit ip.val f n (ofType 2 3) = true) (head : s.flitHead ip.val f = some (h, pl)) (is : field pl 0 1 = 4)
    (new : (s.portAt ip.val).link.repeats pl = false) (own : (s.portAt ip.val).link.tunMsg = some (3, x)) :
    completes (.resumeAck t ip f) s (fun u =>
      (u.portAt ip.val).link.tunMsg = none ∧ (u.portAt ip.val).link.resAcked = true) := by
  obtain ⟨v, run, arrival⟩ := rxTunnel_of_new t hears head is new
  obtain ⟨cnt, lad, tunRx, spareRx, port⟩ := arrival.port
  have own' : (v.portAt ip.val).link.tunMsg = some (3, x) := by rw [port]; exact own
  have start : exec (.resumeAck t ip f) s = execResumeAck t ip f s := rfl
  rw [execResumeAck, run] at start
  refine ⟨_, start, ?_⟩
  simp only [own']
  rw [settle_portAt s ip.val (·.link.tunMsg) (fun _ => rfl), settle_portAt s ip.val (·.link.resAcked) (fun _ => rfl),
    (resumeDone_keeps ip.val n _).1, (resumeDone_keeps ip.val n _).2, State.modLink, State.portAt_modPort_self]
  exact ⟨rfl, rfl⟩

end Sys2Proof.Machine
end

section
/-! SPARE messages (R165-R168, R216-R218). -/

namespace Sys2Proof.Machine

variable {s u v : State}

/-- The positions of port `ip` and its SPARE messages stand in `u` as they stood in `s`. -/
structure SameRoles (ip : Nat) (s u : State) : Prop where
  active : (u.portAt ip).active = (s.portAt ip).active
  pool : (u.portAt ip).pool = (s.portAt ip).pool
  dropped : (u.portAt ip).dropped = (s.portAt ip).dropped
  spare : (u.portAt ip).spare = (s.portAt ip).spare
  spareAns : (u.portAt ip).spareAns = (s.portAt ip).spareAns

namespace SameRoles

variable {ip : Nat}

theorem ofReacts (r : Reacts s u) : SameRoles ip s u where
  active := r.portAt ip (·.active) (fun _ => rfl)
  pool := r.portAt ip (·.pool) (fun _ => rfl)
  dropped := r.portAt ip (·.dropped) (fun _ => rfl)
  spare := r.portAt ip (·.spare) (fun _ => rfl)
  spareAns := r.portAt ip (·.spareAns) (fun _ => rfl)

theorem trans (h : SameRoles ip s u) (g : SameRoles ip u v) : SameRoles ip s v where
  active := g.active.trans h.active
  pool := g.pool.trans h.pool
  dropped := g.dropped.trans h.dropped
  spare := g.spare.trans h.spare
  spareAns := g.spareAns.trans h.spareAns

theorem modLink (f : LinkSt → LinkSt) : SameRoles ip s (s.modLink ip f) := by
  constructor <;> rw [State.modLink, State.portAt_modPort_self]

theorem replayWhere (p : TxFlit → Bool) : SameRoles ip s (Machine.replayWhere ip p s) :=
  (modLink _).trans (ofReacts (replayWhere_reacts ip p))

/-- Retransmission from a position on moves no position (R205, R217). -/
theorem replayFrom (pos : Nat) (lost : Option FlitIndex) : SameRoles ip s (Machine.replayFrom ip pos lost s) := by
  cases lost with
  | none => exact ofReacts (Reacts.refl s)
  | some i => exact replayWhere _

end SameRoles

theorem Arrival.roles {ip t : Nat} {h : Hdr} (a : Arrival ip t h s v) : SameRoles ip s v := by
  obtain ⟨_, _, _, _, port⟩ := a.port
  constructor <;> rw [port]

/-- A SPARE message on a link with nothing pending that is no repeat: its arrival is noted, and the command acts on it (R195, R216). -/
theorem rxSpare_of_new {op n : Nat} {ip : PortNo} {f : RxFlit} {h : Hdr} {pl : List Byte} (t : Nat)
    (hears : s.hearsFlit ip.val f n (ofType 2 4) = true) (head : s.flitHead ip.val f = some (h, pl)) (is : field pl 0 1 = op)
    (new : (s.portAt ip.val).spareRx.get none (32 * field pl 0 1 + field pl 1 1) ≠ some (pl.take 16)) :
    ∃ v, (∀ act, rxSpare t ip.val f op act s = .next (settle s (act n (spareOf pl) v))) ∧ Arrival ip.val t h s v := by
  obtain ⟨-, -, -, -, kind, -⟩ := hearsFlit_elim hears head
  obtain ⟨v, run, arrival, -, noted⟩ :=
    rxFlit_of_unsequenced t hears head (unsequenced_of_cls (ofType_typ kind) (.inr (ofType_cls kind)))
  obtain ⟨lane, ports, rest⟩ := arrival.rest
  obtain ⟨cnt, lad, tunRx, spareRx, port⟩ := arrival.port
  have key : op * 32 + (spareOf pl).out = 32 * field pl 0 1 + field pl 1 1 := by rw [is, Nat.mul_comm]; rfl
  refine ⟨v.modPort ip.val (fun p => { p with spareRx := p.spareRx.set none (op * 32 + (spareOf pl).out) (some (pl.take 16)) }),
    fun act => ?_, ⟨lane, _, by rw [rest]; rfl⟩, cnt, lad, tunRx,
    spareRx.set none (op * 32 + (spareOf pl).out) (some (pl.take 16)), ?_⟩
  · rw [rxSpare, run _ _ (by rw [kind, is]; exact beq_self_eq_true op)]
    dsimp only
    rw [if_neg (by rw [key, noted]; exact new)]
  · rw [State.portAt_modPort_self, port]

/-- The position that a SPARE message names first is one of the eighteen (R216). -/
theorem spareOf_out_lt {ip n : Nat} {f : RxFlit} {h : Hdr} {pl : List Byte} (hears : s.hearsFlit ip f n (ofType 2 4) = true)
    (head : s.flitHead ip f = some (h, pl)) : (spareOf pl).out < 18 := by
  obtain ⟨-, -, -, valid, kind, -⟩ := hearsFlit_elim hears head
  have typ := ofType_typ kind
  have cls := ofType_cls kind
  simp only [State.flitOk, typ, State.ctrlOk, cls, Bool.and_eq_true, decide_eq_true_eq] at valid
  obtain ⟨-, -, ⟨⟨⟨⟨⟨⟨⟨-, out⟩, -⟩, -⟩, -⟩, -⟩, -⟩, -⟩⟩ := valid
  exact out

/-! ### Answers that end an own message (R217, R218) -/

theorem endSpare_spare (ip : Nat) (m : SpareMsg) (s : State) :
    ((endSpare ip m s).portAt ip).spare = (s.portAt ip).spare.erase m := by
  rw [endSpare, State.portAt_modPort_self]

theorem SameRoles.waitingSpare {ip : Nat} (r : SameRoles ip s v) (op out : Nat) : v.waitingSpare ip op out = s.waitingSpare ip op out := by
  unfold State.waitingSpare
  rw [r.spare]

/-! ### Drops and swaps (R165-R168) -/

/-- A drop changes the roles of its position alone, but for the entry of one that was active (R165, R413). -/
theorem dropPos_reacts (ip pos other : Nat) (s : State) : Reacts (s.modPort ip (·.without pos)) (dropPos ip pos other s) := by
  unfold dropPos
  exact Reacts.ite (Reacts.logEvent _) (Reacts.refl _)

/-- A port after position `k` of its pool was brought in as the partner named it (R166). -/
def PortSt.namedIn (k : Nat) (p : PortSt) : PortSt := { p with active := p.active ||| posBit k, pool := p.pool &&& ~~~posBit k }

theorem bringIn_reacts (ip k out : Nat) (s : State) : Reacts (s.modPort ip (·.namedIn k)) (bringIn ip k out s) := by
  unfold bringIn
  dsimp only
  split
  · exact Reacts.logEvent _
  · exact (Reacts.logEvent _).trans (Reacts.raise _)

/-- The position that the partner's forced swap brings in is another than the dropped one, which stays out (R166). -/
theorem bringIn_staysDropped {ip k pos : Nat} (out : hasPos (s.portAt ip).active pos = false) (lt : k < 18) (ne : k ≠ pos) :
    StaysDropped ip pos s (bringIn ip k pos s) := by
  refine StaysDropped.thenReacts (t := s.modPort ip (·.namedIn k)) ⟨?_, ?_, ?_, id⟩ (bringIn_reacts ip k pos s)
  · rw [State.portAt_modPort_self]
    exact (hasPos_or _ _ _).trans (by rw [out, hasPos_posBit_ne lt ne]; rfl)
  · rw [State.portAt_modPort_self]; rfl
  · rw [State.portAt_modPort_self]; rfl

/-- A port after an own swap was undone (R168): what still stands where the swap put it returns. -/
def PortSt.unswapped (w : SpareMsg) (p : PortSt) : PortSt :=
  let i := p.active &&& posBit w.inn
  let o := if w.cause = 5 then p.pool &&& posBit w.out else 0
  { p with active := (p.active &&& ~~~i) ||| o, pool := (p.pool &&& ~~~o) ||| i }

/-- Undoing an own swap ends its message and returns its positions, besides its entry and action_refused (R168, R218). -/
theorem undoSwap_reacts (ip n cause : Nat) (w : SpareMsg) (s : State) :
    Reacts ((endSpare ip w s).modPort ip (·.unswapped w)) (undoSwap ip n cause w s) :=
  (Reacts.logEvent _).trans (Reacts.raiseD _ _)

/-- Taking out what a mask has of a bit takes out the bit. -/
theorem and_not_and (a b : BitVec 18) : a &&& ~~~(a &&& b) = a &&& ~~~b := by
  ext i hi
  cases ha : a[i] <;> simp [ha]

/-- Undoing a swap that was not forced takes the position that it brought in back to the pool (R168). -/
theorem unswapped_of_planned {w : SpareMsg} (p : PortSt) (planned : w.cause ≠ 5) :
    (p.unswapped w).active = p.active &&& ~~~posBit w.inn ∧ (p.unswapped w).pool = p.pool ||| (p.active &&& posBit w.inn) := by
  simp only [PortSt.unswapped, if_neg planned]
  have all : ~~~(0 : BitVec 18) = BitVec.allOnes 18 := rfl
  exact ⟨BitVec.or_zero.trans (and_not_and _ _), by rw [all, BitVec.and_allOnes]⟩

theorem applySwap_reacts (ip out inn : Nat) (s : State) :
    Reacts (s.modPort ip (fun p => { p with active := (p.active &&& ~~~posBit out) ||| posBit inn,
                                            pool := (p.pool &&& ~~~posBit inn) ||| posBit out })) (applySwap ip out inn s) :=
  Reacts.logEvent _

/-- An answer joins the port's answers, and all else of the port stands (R216). -/
theorem answerSpare_portAt (ip op out inn cause : Nat) (lost : Option FlitIndex) (s : State) :
    ∃ l m, m.op = op ∧ m.out = out ∧
      (answerSpare ip op out inn cause lost s).portAt ip = { s.portAt ip with spareAns := l ++ [m] } :=
  ⟨_, _, rfl, rfl, State.portAt_modPort_self s ip _⟩

section Spare

variable {t n : Nat} {ip : PortNo} {f : RxFlit} {h : Hdr} {pl : List Byte} {w : SpareMsg}
  (hears : s.hearsFlit ip.val f n (ofType 2 4) = true) (head : s.flitHead ip.val f = some (h, pl))
  (new : (s.portAt ip.val).spareRx.get none (32 * field pl 0 1 + field pl 1 1) ≠ some (pl.take 16))
include hears head new

/-- DROP completes (R165, R217): the position is dropped here too, with the swap that the drop forces, and the drop is answered. -/
theorem drop_completes (is : field pl 0 1 = 1) (other : s.waitingSpare ip.val 1 (spareOf pl).out = none) :
    completes (.drop t ip f) s (fun u => hasPos (u.portAt ip.val).active (spareOf pl).out = false ∧
      hasPos (u.portAt ip.val).dropped (spareOf pl).out = true ∧
      ∃ m ∈ (u.portAt ip.val).spareAns, m.op = 2 ∧ m.out = (spareOf pl).out) := by
  have lt := spareOf_out_lt hears head
  obtain ⟨v, run, arrival⟩ := rxSpare_of_new t hears head is new
  have start : exec (.drop t ip f) s = execDrop t ip f s := rfl
  rw [execDrop, run] at start
  simp only [arrival.roles.waitingSpare, other] at start
  generalize (spareOf pl).out = out at *
  generalize named : (decide ((spareOf pl).inn < 18) && hasPos (v.portAt ip.val).pool (spareOf pl).inn &&
    decide ((spareOf pl).inn ≠ out)) = b at start
  generalize dropped : dropPos ip.val out _ v = d at start
  have drop : (d.portAt ip.val).kept = ((v.portAt ip.val).without out).kept := by
    rw [← dropped, (dropPos_reacts ip.val out _ v).port ip.val, State.portAt_modPort_self]
  have active : hasPos (d.portAt ip.val).active out = false :=
    (congrArg (fun p : PortSt => hasPos p.active out) drop :).trans (hasPos_without _ lt)
  have pool : hasPos (d.portAt ip.val).pool out = false :=
    (congrArg (fun p : PortSt => hasPos p.pool out) drop :).trans (hasPos_without _ lt)
  have inDropped : hasPos (d.portAt ip.val).dropped out = true := by
    refine (congrArg (fun p : PortSt => hasPos p.dropped out) drop :).trans ((hasPos_or _ _ _).trans ?_)
    rw [hasPos_posBit_self lt, Bool.or_true]
  generalize swapped : (if b = true then (some (spareOf pl).inn, bringIn ip.val (spareOf pl).inn out d)
    else replaceDropped ip.val out d) = r at start
  have stays : StaysDropped ip.val out d r.2 := by
    rw [← swapped]
    split
    case isTrue yes =>
      simp only [yes, Bool.and_eq_true, decide_eq_true_eq] at named
      exact bringIn_staysDropped active named.1.1 named.2
    case isFalse => exact replaceDropped_staysDropped active pool
  have resent : SameRoles ip.val r.2 (replayFrom ip.val out (spareOf pl).lost r.2) := SameRoles.replayFrom _ _
  obtain ⟨l, m, op, pos, answered⟩ := answerSpare_portAt ip.val 2 out (r.1.getD 0x1F) 4 (d.lostFrom ip.val out)
    (replayFrom ip.val out (spareOf pl).lost r.2)
  refine ⟨_, start, ?_, ?_, m, ?_, op, pos⟩
  · rw [settle_portAt s ip.val (·.active) (fun _ => rfl), answered]
    exact (congrArg (hasPos · out) resent.active).trans stays.active
  · rw [settle_portAt s ip.val (·.dropped) (fun _ => rfl), answered]
    exact (congrArg (hasPos · out) (resent.dropped.trans stays.dropped)).trans inDropped
  · rw [settle_portAt s ip.val (·.spareAns) (fun _ => rfl), answered]
    exact List.mem_append_right l (List.mem_singleton_self m)

/-- DROP_ACK completes (R217). -/
theorem dropAck_completes (is : field pl 0 1 = 2) (own : s.waitingSpare ip.val 1 (spareOf pl).out = some w) :
    completes (.dropAck t ip f) s (fun u => (u.portAt ip.val).spare = (s.portAt ip.val).spare.erase w) := by
  obtain ⟨v, run, arrival⟩ := rxSpare_of_new t hears head is new
  have start : exec (.dropAck t ip f) s = execDropAck t ip f s := rfl
  rw [execDropAck, run, arrival.roles.waitingSpare, own] at start
  refine ⟨_, start, ?_⟩
  dsimp only
  rw [settle_portAt s ip.val (·.spare) (fun _ => rfl), (SameRoles.replayFrom _ _).spare, endSpare_spare, arrival.roles.spare]

/-- SWAP completes where no own swap waits and it fits (R167, R218): the two positions change places, and the swap is answered. -/
theorem swap_completes (is : field pl 0 1 = 3) (alone : (s.portAt ip.val).spare = [])
    (fits : s.swapFits ip.val (spareOf pl).out (spareOf pl).inn = true) : completes (.swap t ip f) s (fun u =>
      (u.portAt ip.val).active = ((s.portAt ip.val).active &&& ~~~posBit (spareOf pl).out) ||| posBit (spareOf pl).inn ∧
      (u.portAt ip.val).pool = ((s.portAt ip.val).pool &&& ~~~posBit (spareOf pl).inn) ||| posBit (spareOf pl).out ∧
      ∃ m ∈ (u.portAt ip.val).spareAns, m.op = 4) := by
  obtain ⟨v, run, arrival⟩ := rxSpare_of_new t hears head is new
  have alone' : (v.portAt ip.val).spare = [] := arrival.roles.spare.trans alone
  have fits' : v.swapFits ip.val (spareOf pl).out (spareOf pl).inn = true := by
    unfold State.swapFits
    rw [arrival.roles.active, arrival.roles.pool]
    exact fits
  have start : exec (.swap t ip f) s = execSwap t ip f s := rfl
  rw [execSwap, run] at start
  simp only [alone', fits', List.find?_nil, if_true] at start
  have swap := (applySwap_reacts ip.val (spareOf pl).out (spareOf pl).inn v).port ip.val
  rw [State.portAt_modPort_self] at swap
  obtain ⟨l, m, op, -, answered⟩ := answerSpare_portAt ip.val 4 (spareOf pl).out (spareOf pl).inn (spareOf pl).cause none
    (applySwap ip.val (spareOf pl).out (spareOf pl).inn v)
  refine ⟨_, start, ?_, ?_, m, ?_, op⟩
  · rw [settle_portAt s ip.val (·.active) (fun _ => rfl), answered, ← arrival.roles.active]
    exact (congrArg PortSt.active swap :)
  · rw [settle_portAt s ip.val (·.pool) (fun _ => rfl), answered, ← arrival.roles.pool]
    exact (congrArg PortSt.pool swap :)
  · rw [settle_portAt s ip.val (·.spareAns) (fun _ => rfl), answered]
    exact List.mem_append_right l (List.mem_singleton_self m)

/-- SWAP_ACK completes (R218). -/
theorem swapAck_completes (is : field pl 0 1 = 4) (own : s.waitingSpare ip.val 3 (spareOf pl).out = some w) :
    completes (.swapAck t ip f) s (fun u => (u.portAt ip.val).spare = (s.portAt ip.val).spare.erase w) := by
  obtain ⟨v, run, arrival⟩ := rxSpare_of_new t hears head is new
  have start : exec (.swapAck t ip f) s = execSwapAck t ip f s := rfl
  rw [execSwapAck, run, arrival.roles.waitingSpare, own] at start
  refine ⟨_, start, ?_⟩
  dsimp only
  rw [settle_portAt s ip.val (·.spare) (fun _ => rfl), endSpare_spare, arrival.roles.spare]

/-- SWAP_REFUSE completes (R168, R218): the own swap ends, and unless it was forced the position that it brought in returns to the
pool. -/
theorem swapRefuse_completes (is : field pl 0 1 = 5) (own : s.waitingSpare ip.val 3 (spareOf pl).out = some w) :
    completes (.swapRefuse t ip f) s (fun u => (u.portAt ip.val).spare = (s.portAt ip.val).spare.erase w ∧
      (w.cause ≠ 5 → (u.portAt ip.val).active = (s.portAt ip.val).active &&& ~~~posBit w.inn ∧
        (u.portAt ip.val).pool = (s.portAt ip.val).pool ||| ((s.portAt ip.val).active &&& posBit w.inn))) := by
  obtain ⟨v, run, arrival⟩ := rxSpare_of_new t hears head is new
  have start : exec (.swapRefuse t ip f) s = execSwapRefuse t ip f s := rfl
  rw [execSwapRefuse, run, arrival.roles.waitingSpare, own] at start
  have port := ((undoSwap_reacts ip.val n 6 w v).trans (Reacts.settle s)).port ip.val
  rw [State.portAt_modPort_self, endSpare, State.portAt_modPort_self] at port
  refine ⟨_, start, ?_, fun planned => ?_⟩
  · rw [← arrival.roles.spare]
    exact (congrArg PortSt.spare port :)
  · obtain ⟨active, pool⟩ := unswapped_of_planned { v.portAt ip.val with spare := (v.portAt ip.val).spare.erase w } planned
    rw [← arrival.roles.active, ← arrival.roles.pool]
    exact ⟨(congrArg PortSt.active port :).trans active, (congrArg PortSt.pool port :).trans pool⟩

end Spare

/-- Settles O22: each message arrives as no repeat and its command acts on it; the raisings, entries and retransmissions that come with
it, and the settling at the end, undo none of it. -/
theorem tunnelAndSpareMessagesComplete : Obligations.TunnelAndSpareMessagesComplete := by
  unfold Obligations.TunnelAndSpareMessagesComplete
  refine ⟨?_, ?_, ?_, ?_, ?_, ?_, ?_, ?_, ?_⟩
  · intro t ip f n h pl s hears head is new fresh guard safe phase calm
    exact tunnelStart_completes hears head is new fresh guard safe phase calm
  · intro t ip f n h pl x s hears head is new fresh own
    exact startAck_completes hears head is new fresh own
  · intro t ip f n h pl s hears head is new flag resuming waiting
    exact resume_completes hears head is new flag resuming waiting
  · intro t ip f n h pl x s hears head is new own
    exact resumeAck_completes hears head is new own
  · intro t ip f n h pl s hears head is new other
    exact drop_completes hears head new is other
  · intro t ip f n h pl w s hears head is new own
    exact dropAck_completes hears head new is own
  · intro t ip f n h pl s hears head is new alone fits
    exact swap_completes hears head new is alone fits
  · intro t ip f n h pl w s hears head is new own
    exact swapAck_completes hears head new is own
  · intro t ip f n h pl w s hears head is new own
    exact swapRefuse_completes hears head new is own

end Sys2Proof.Machine
end

section
/-! The receipt of a DATA flit by a path whose datapath still runs Observe (R177, R221, R259): its capture streams may close on the flit's
bytes, and their entries may make the Logbook's mirror late. -/

namespace Sys2Proof.Machine

/-- A DATA flit that completes no unit of the protocol decoder takes its way by number, and no more (R221, R270). -/
theorem exec_data_of_read {s : State} {t n : Nat} {ip : PortNo} {f : RxFlit} {hw : BitVec 96} {pl : List Byte} {corrected : Nat}
    (still : s.still = false) (link : s.linkPath ip.val = some n) (hears : s.hears ip.val f.pos.val = true)
    (read : s.readFlit ip.val f = .got hw pl corrected) (valid : s.flitOk n false (hdrOf hw) pl = true)
    (wanted : ofType 1 0 (hdrOf hw) pl = true) (numbered : (hdrOf hw).sequenced = true) :
    exec (.data t ip f []) s =
      .next (settle s (takeSequenced ip.val n hw pl (s.received t ip.val n f corrected (hdrOf hw)))) := by
  have start : exec (.data t ip f []) s = execData t ip f [] s := rfl
  rw [start, execData, live_of_running still, rxEffect_of_read link hears read valid wanted, numbered, if_pos rfl]
  dsimp only
  rw [read]
  dsimp only
  rw [List.foldl_nil, ite_self]

/-- A capture stream that closes once 256 bytes more have filled its record in progress (R262, R264, R265). -/
def lastRecord : StrmSt :=
  { isOpen := true, limit := 1, cur := some { kind := 1, seq := 0, time := 0, payload := List.replicate 3744 0 } }

/-- A running device. Path 0 is in Guard with its tunnel running, and its datapath runs Observe until its boundary (R177); lane 0 carries
its link. It has 65 capture streams that are about to close. The Logbook holds 64 entries less than the 16,384 above which log_mirror
is raised (R410), and log_mirror is of class Fatal (R355). -/
def crowded : State :=
  let wired : List (Nat × Word) := [(0x20218, 0x00030000), (0x100000, 0xFF008000), (0x200000, 0x00008204), (0x200010, 0x03020100),
    (0x200014, 0x00000504), (0x201000, 0x00008800)]
  { State.reset with
    pwr := { State.reset.pwr with por := false, steps := 0x7FF }
    regs := { State.reset.regs with file := ⟨wired ++ (List.range 65).map (fun k => (aStrm k, 0x80000000))⟩ }
    lane := ({} : Tbl LaneSt).set {} 0 { st := .run, eligible := true }
    port := ({} : Tbl PortSt).set {} 0 { up := true, active := 1, link := { tunnel := 1, fresh := false } }
    path := ({} : Tbl PathSt).set {} 0 { mode := .guard, runs := some .observe }
    spl := { State.reset.spl with strm := ⟨(List.range 65).map (fun k => (k, lastRecord))⟩ }
    log := { ring := List.replicate 16320 default, used := 16320, newest := 16320, mirrored := 16320, recorded := 16320 } }

/-- The first DATA flit of path 0, with 256 bytes of zeros, as lane 0 receives it (R188, R192). -/
def firstHeader : BitVec 96 := hdrWord 1 0 false 1 0 0 0
def firstBytes : List Byte := List.replicate 256 0
def firstFlit : RxFlit := sentFlit 0 firstHeader firstBytes

theorem crowded_calm : crowded.calm = true := by decide +kernel

theorem crowded_straight : (crowded.laneAt (crowded.ipLane 0 0)).rxInv = false ∧
    (crowded.laneAt (crowded.ipLane 0 0)).precRx = false := by
  decide +kernel

theorem crowded_link : crowded.linkPath 0 = some 0 ∧ crowded.hears 0 0 = true ∧
    crowded.flitOk 0 false (hdrOf firstHeader) firstBytes = true := by
  decide +kernel

theorem crowded_read : crowded.readFlit 0 firstFlit = .got firstHeader firstBytes 0 :=
  readFlit_sent crowded 0 0 _ _ List.length_replicate crowded_straight.1 crowded_straight.2

theorem crowded_receives : crowded.receivesNext 0 firstFlit 0 1 0 = true := by
  obtain ⟨link, hears, valid⟩ := crowded_link
  have next : (ofType 1 0 (hdrOf firstHeader) firstBytes && (hdrOf firstHeader).seq == (crowded.portAt 0).link.ack + 1) = true := by
    decide +kernel
  have hearsNext := hearsFlit_sent crowded 0 0 firstHeader firstBytes 0
    (fun h pl => ofType 1 0 h pl && h.seq == (crowded.portAt 0).link.ack + 1) List.length_replicate crowded_straight.1 crowded_straight.2
    ⟨rfl, link, hears⟩ ⟨valid, next⟩ (by decide +kernel)
  unfold State.receivesNext firstFlit
  rw [hearsNext]
  decide +kernel

/-- The state in which the flit has been received: every capture stream has closed with its entry. -/
def crowdedReceived : State := takeSequenced 0 0 firstHeader firstBytes (crowded.received 0 0 0 firstFlit 0 (hdrOf firstHeader))

theorem exec_data_crowded : exec (.data 0 0 firstFlit []) crowded = .next (settle crowded crowdedReceived) := by
  obtain ⟨link, hears, valid⟩ := crowded_link
  exact exec_data_of_read (ip := 0) rfl link hears crowded_read valid (by decide +kernel) (by decide +kernel)

/-- The settling raises log_mirror, which is Fatal: the tunnel of path 0 stops, and its interval counter returns to 0 (R363, R371, R410). -/
theorem crowded_rxCount : ((settle crowded crowdedReceived).portAt 0).link.rxCount = 0 := by decide +kernel

/-- Refutes O18: a DATA flit of a path in Guard whose datapath still runs Observe closes 65 capture streams, whose entries bring
log_mirror; that is Fatal here, so the tunnel stops and no interval is counted. -/
theorem not_tunnelFlitsComplete : ¬Obligations.TunnelFlitsComplete := by
  unfold Obligations.TunnelFlitsComplete
  rintro ⟨data, -, -⟩
  have head : crowded.flitHead 0 firstFlit = some (hdrOf firstHeader, firstBytes) :=
    flitHead_sent crowded 0 0 _ _ List.length_replicate crowded_straight.1 crowded_straight.2
  obtain ⟨u, run, -, counts⟩ := data 0 0 firstFlit [] 0 (hdrOf firstHeader) firstBytes crowded crowded_receives head rfl nofun rfl rfl
    (by decide +kernel)
  have settled : u = settle crowded crowdedReceived := (Host.Outcome.next.inj (exec_data_crowded.symm.trans run)).symm
  have counted := (counts rfl rfl crowded_calm).1
  rw [settled, show ((0 : PortNo) : Nat) = 0 from rfl, crowded_rxCount] at counted
  exact absurd counted (by decide)

end Sys2Proof.Machine
end
